-- ==== Sys2Proof/Word.lean ====
section
/-! DEFINITION. The byte, the only unit of storage and of transfer (R51), and byte sequences (R9, R10). -/

namespace Sys2Proof

/-- A byte: an unsigned 8-bit value, bit 7 the most significant (R9). -/
abbrev Byte := BitVec 8

/-- A byte sequence: a finite list of bytes (R10). -/
abbrev Bytes := List Byte

end Sys2Proof
end

