-- ==== Sys2Proof/Config.lean ====
section
/-! DEFINITION. The constants the source fixes (R6) and the parameters it leaves to the implementation (R7). -/

namespace Sys2Proof.Config

/-- `DELIM`, the reserved delimiter and frame terminator (R6). -/
def delim : Byte := 0x00

/-- `CRC_POLY`, the low 8 bits of the polynomial, x^8 implicit (R6, R113). -/
def crcPoly : Byte := 0x4D

/-- `CRC_INIT`, the start value of the accumulator (R6, R113); there is no final XOR (`CRC_XOROUT`). -/
def crcInit : Byte := 0x00

/-- `MAX_BLOCK`, the largest COBS block, code byte included (R6). -/
def maxBlock : Byte := 255

/-- `MAX_BLOCK_DATA`, the largest number of data bytes in one block (R6). -/
def maxBlockData : Nat := 254

/-- `RESET_SEQ`, the seven bytes of the resync sequence (R6, R94). -/
def resetSeq : Bytes := [0x00, 0x00, 0x00, 0x72, 0x00, 0x00, 0x00]

/-- `CHUNK`, payload bytes per chunk of the consuming protocol: a fact no unit enforces (R6, R212). -/
def chunk : Nat := 190

/-- How the encoder treats a full block (90_conflicts.md C1, D4, U8). -/
inductive CapRule where
  /-- The normative reading: a full block is closed when the NEXT input byte is looked at (R133). -/
  | literal
  /-- The optional reading of C1: a block is closed as soon as it holds 254 data bytes. Not normative. -/
  | closeOnFill
  deriving DecidableEq, Repr

/-- What the source leaves to the implementation (R7); `none` is infinity, the default of R7. -/
structure Params where
  /-- `RX_BUF_MAX`, the limit of the receive buffer (R7, D7). -/
  rxBufMax : Option Nat
  /-- `LEN_W`, the width of lengths and cursors (R7, D12). -/
  lenW     : Option Nat
  /-- The cap rule of the encoder (D4): `literal` is the spec's choice. -/
  capRule  : CapRule
  deriving DecidableEq, Repr

/-- The defaults of R7 and D4: no limits, the literal cap rule. -/
def Params.default : Params := { rxBufMax := none, lenW := none, capRule := .literal }

end Sys2Proof.Config
end

