-- ==== Sys2Proof/Syntax.lean ====
section
/-! DEFINITION. The instructions: one constructor for each row of spec/opcode_table.json, its nine operations and the
reserved select codes (R96), and its eleven wire elements (R97). -/

namespace Sys2Proof

/-- The output buffer a caller supplies to standalone `stuff` and `unstuff` (R57). -/
structure OutBuf where
  /-- The output capacity (R141, R156); `none` is a streaming output, for which the precondition is vacuous (R141). -/
  cap           : Option Nat
  /-- Whether the output buffer overlaps the input buffer; such a start is refused (R57, D6). -/
  overlapsInput : Bool
  deriving DecidableEq, Repr

/-- The instructions of the block, in the order of spec/opcode_table.json. -/
inductive Instr where
  /-- `calc_crc(payload)` (R112). -/
  | calcCrc (payload : Bytes)
  /-- `stuff(input)` into a caller's buffer (R130, R136). -/
  | stuff (input : Bytes) (out : OutBuf)
  /-- `unstuff(input)` into a caller's buffer (R150, R151). -/
  | unstuff (input : Bytes) (out : OutBuf)
  /-- `encode_and_send(command, payload)` (R170). -/
  | encodeAndSend (command : Byte) (payload : Bytes)
  /-- `receive_and_decode()` (R190). -/
  | receiveAndDecode
  /-- `send_ack(command)` (R210). -/
  | sendAck (command : Byte)
  /-- `wait_ack(expected_command)` (R211). -/
  | waitAck (expected : Byte)
  /-- `send_reset_sequence()` (R213). -/
  | sendResetSequence
  /-- `read_until_sequence(seq)` (R215). -/
  | readUntilSequence (seq : Bytes)
  /-- A reserved select code, `0x9` to `0xF` (R96). -/
  | reservedOpsel (code : BitVec 4)
  /-- A whole empty-payload frame (R81). -/
  | frameE (command : Byte)
  /-- A whole payload frame: command, stuffed region, delimiter (R82). -/
  | frameP (command : Byte) (region : Bytes)
  /-- The command byte, index 0 of a frame (R83). -/
  | frameCommand (command : Byte)
  /-- The delimiter (R87). -/
  | frameDelim
  /-- A whole COBS block: its code and its data bytes (R84). -/
  | cobsBlock (code : Byte) (data : Bytes)
  /-- A length code 1 to 254 (R85). -/
  | cobsCodeShort (code : Byte)
  /-- The length code 255 (R85, R86). -/
  | cobsCodeFull
  /-- The length code 0, reserved and invalid (R92). -/
  | cobsCodeZero
  /-- A literal data byte of a block (R84). -/
  | cobsData (data : Byte)
  /-- The CRC byte (R89). -/
  | crcByte (crc : Byte)
  /-- The reset sequence (R94). -/
  | resetSequence
  deriving DecidableEq, Repr

end Sys2Proof
end

