-- ==== Sys2Proof/WellFormed.lean ====
section
/-! DEFINITION. Which instructions the encodings unlessRefused: the value ranges of spec/opcode_table.json and of R81 to R96. -/

namespace Sys2Proof

/-- `true` on a byte sequence without the delimiter (R84, R88). -/
def noDelim (bs : Bytes) : Bool := bs.all (· != Config.delim)

/-- The check of one instruction. Operand sequences of operations are unrestricted (R112, R130, R150, R170), but for the
non-empty `seq` of `read_until_sequence` (R215). -/
def Instr.wf : Instr → Bool
  | .calcCrc _ => true
  | .stuff _ _ => true
  | .unstuff _ _ => true
  | .encodeAndSend _ _ => true
  | .receiveAndDecode => true
  | .sendAck _ => true
  | .waitAck _ => true
  | .sendResetSequence => true
  | .readUntilSequence seq => !seq.isEmpty
  | .reservedOpsel code => decide (9 ≤ code.toNat)
  | .frameE _ => true
  | .frameP _ region => !region.isEmpty && noDelim region
  | .frameCommand _ => true
  | .frameDelim => true
  | .cobsBlock code data => decide (data.length + 1 = code.toNat) && noDelim data
  | .cobsCodeShort code => decide (1 ≤ code.toNat) && decide (code.toNat ≤ 254)
  | .cobsCodeFull => true
  | .cobsCodeZero => true
  | .cobsData data => data != Config.delim
  | .crcByte _ => true
  | .resetSequence => true

/-- Whether an instruction is an operation the caller can ask for (format `OP` of the table), reserved codes included. -/
def Instr.isOp : Instr → Bool
  | .calcCrc _ => true
  | .stuff _ _ => true
  | .unstuff _ _ => true
  | .encodeAndSend _ _ => true
  | .receiveAndDecode => true
  | .sendAck _ => true
  | .waitAck _ => true
  | .sendResetSequence => true
  | .readUntilSequence _ => true
  | .reservedOpsel _ => true
  | .frameE _ => false
  | .frameP _ _ => false
  | .frameCommand _ => false
  | .frameDelim => false
  | .cobsBlock _ _ => false
  | .cobsCodeShort _ => false
  | .cobsCodeFull => false
  | .cobsCodeZero => false
  | .cobsData _ => false
  | .crcByte _ => false
  | .resetSequence => false

end Sys2Proof
end

