-- ==== Sys2Proof/Decode.lean ====
section
/-! DEFINITION. From what is presented to the block to an instruction and back: the start request of the caller (select
code and operands, R36, R96) and the wire element of the line, told apart by its position (R97). -/

namespace Sys2Proof

/-- Where on the line an element stands. The byte pattern alone does not identify a wire element: the position does (R97). -/
inductive LinePos where
  /-- A whole frame (R80). -/
  | frame
  /-- Byte index 0 of a frame (R83). -/
  | command
  /-- The last byte of a frame (R87). -/
  | delim
  /-- A whole COBS block (R84). -/
  | block
  /-- Byte index 0 of a COBS block (R84, R85). -/
  | code
  /-- A byte of a COBS block at index 1 or above (R84). -/
  | data
  /-- The last byte of the stuffed sequence (R89). -/
  | crc
  /-- The out-of-band reset sequence (R94). -/
  | resync
  deriving DecidableEq, Repr

/-- The operands `start` carries (R36, R96); each operation takes those the table names for it. -/
structure Operands where
  command : Byte
  seq     : Bytes
  out     : OutBuf
  deriving DecidableEq, Repr

/-- What can be presented to the block: a start request or an element of the line. -/
inductive InputWord where
  | start (opsel : BitVec 4) (operands : Operands)
  | line (pos : LinePos) (bytes : Bytes)
  deriving DecidableEq, Repr

/-- Why bytes are not the element their position asks for. -/
inductive Reject where
  /-- No byte at all. -/
  | empty
  /-- More bytes than a one-byte element has. -/
  | tooLong
  /-- A frame or a delimiter that does not end in `0x00` (R81, R82, R87). -/
  | noDelimiter
  /-- A `0x00` inside a stuffed region or among a block's data (R84, R88). -/
  | delimiterInside
  /-- A whole block with the reserved code `0x00` (R92). -/
  | zeroCode
  /-- A block whose code is not its length (R84). -/
  | blockLength
  /-- Not the seven bytes of the reset sequence (R94). -/
  | notResetSequence
  deriving DecidableEq, Repr

/-- The operation a select code asks for, with the operands it takes (R96). -/
def decodeStart (opsel : BitVec 4) (o : Operands) : Instr :=
  match opsel.toNat with
  | 0 => .calcCrc o.seq
  | 1 => .stuff o.seq o.out
  | 2 => .unstuff o.seq o.out
  | 3 => .encodeAndSend o.command o.seq
  | 4 => .receiveAndDecode
  | 5 => .sendAck o.command
  | 6 => .waitAck o.command
  | 7 => .sendResetSequence
  | 8 => .readUntilSequence o.seq
  | _ => .reservedOpsel opsel

/-- The one byte of a one-byte element. -/
def oneByte : Bytes → Except Reject Byte
  | [] => .error .empty
  | [b] => .ok b
  | _ => .error .tooLong

/-- A whole frame: two bytes are format E, more are format P; told apart by the length alone (R80 to R82). -/
def decodeFrame : Bytes → Except Reject Instr
  | [] => .error .empty
  | c :: rest =>
    if rest.getLast? ≠ some Config.delim then .error .noDelimiter
    else if rest.dropLast.isEmpty then .ok (.frameE c)
    else if noDelim rest.dropLast then .ok (.frameP c rest.dropLast)
    else .error .delimiterInside

/-- A whole COBS block (R84). -/
def decodeBlock : Bytes → Except Reject Instr
  | [] => .error .empty
  | c :: data =>
    if c = Config.delim then .error .zeroCode
    else if data.length + 1 ≠ c.toNat then .error .blockLength
    else if noDelim data then .ok (.cobsBlock c data)
    else .error .delimiterInside

/-- A length code: 0 reserved, 255 full, the others short (R85, R92). -/
def decodeCode (n : Byte) : Instr :=
  if n = 0 then .cobsCodeZero else if n = 255 then .cobsCodeFull else .cobsCodeShort n

/-- The element that `bytes` are at a position of the line (R97). -/
def decodeLine (pos : LinePos) (bytes : Bytes) : Except Reject Instr :=
  match pos with
  | .frame => decodeFrame bytes
  | .command => (oneByte bytes).map .frameCommand
  | .delim => (oneByte bytes).bind fun b => if b = Config.delim then .ok .frameDelim else .error .noDelimiter
  | .block => decodeBlock bytes
  | .code => (oneByte bytes).map decodeCode
  | .data => (oneByte bytes).bind fun b => if b = Config.delim then .error .delimiterInside else .ok (.cobsData b)
  | .crc => (oneByte bytes).map .crcByte
  | .resync => if bytes = Config.resetSeq then .ok .resetSequence else .error .notResetSequence

/-- The decoder, total: an instruction, or the name of what is wrong. -/
def decode : InputWord → Except Reject Instr
  | .start opsel o => .ok (decodeStart opsel o)
  | .line pos bytes => decodeLine pos bytes

/-- The operands an operation does not take: zeros, no sequence, no buffer. -/
def Operands.none : Operands :=
  { command := 0, seq := [], out := { cap := Option.none, overlapsInput := false } }

/-- The encoder: what is presented to the block for an instruction (R81 to R96). -/
def encode : Instr → InputWord
  | .calcCrc payload => .start 0x0 { Operands.none with seq := payload }
  | .stuff input out => .start 0x1 { Operands.none with seq := input, out := out }
  | .unstuff input out => .start 0x2 { Operands.none with seq := input, out := out }
  | .encodeAndSend command payload => .start 0x3 { Operands.none with command := command, seq := payload }
  | .receiveAndDecode => .start 0x4 Operands.none
  | .sendAck command => .start 0x5 { Operands.none with command := command }
  | .waitAck expected => .start 0x6 { Operands.none with command := expected }
  | .sendResetSequence => .start 0x7 Operands.none
  | .readUntilSequence seq => .start 0x8 { Operands.none with seq := seq }
  | .reservedOpsel code => .start code Operands.none
  | .frameE command => .line .frame [command, Config.delim]
  | .frameP command region => .line .frame (command :: region ++ [Config.delim])
  | .frameCommand command => .line .command [command]
  | .frameDelim => .line .delim [Config.delim]
  | .cobsBlock code data => .line .block (code :: data)
  | .cobsCodeShort code => .line .code [code]
  | .cobsCodeFull => .line .code [255]
  | .cobsCodeZero => .line .code [0]
  | .cobsData data => .line .data [data]
  | .crcByte crc => .line .crc [crc]
  | .resetSequence => .line .resync Config.resetSeq

/-- `k` bytes of a number, the most significant first: spec/opcode_table.json numbers a wire row's bits so that byte index
0 is the most significant (its FRAME_E row: command in bits 15:8, delimiter in bits 7:0). -/
def bytesHighFirst : Nat → Nat → Bytes
  | 0, _ => []
  | k + 1, w => BitVec.ofNat 8 (w >>> (8 * k)) :: bytesHighFirst k w

/-- Operands made of zeros, for a word of the table that gives none: command `0x00`, the sequence of one `0x00`, a
streaming output (log 18). -/
def Operands.zeros : Operands :=
  { command := 0, seq := [0], out := { cap := Option.none, overlapsInput := false } }

/-- What a word of the opcode table presents to the block. A byte below `0x10` is a select code with operands of zeros,
another byte a length code, two bytes or more a frame, the seven bytes of the reset sequence that sequence (log 18). -/
def tableWord (nbits w : Nat) : Option InputWord :=
  if nbits ≤ 8 then
    if w < 16 then some (.start (BitVec.ofNat 4 w) Operands.zeros)
    else if w < 256 then some (.line .code [BitVec.ofNat 8 w])
    else none
  else if bytesHighFirst (nbits / 8) w = Config.resetSeq then some (.line .resync Config.resetSeq)
  else some (.line .frame (bytesHighFirst (nbits / 8) w))

/-- The instruction the decoder reads from a word of spec/opcode_table.json. -/
def decodeTableWord (nbits w : Nat) : Option Instr :=
  match tableWord nbits w with
  | none => none
  | some word => (decode word).toOption

end Sys2Proof
end

