-- ==== Sys2Proof/Machine/State.lean ====
section
/-! DEFINITION. The state of the block: every register and buffer of 10_state.md, the two transport streams, the outcome of
the last operation, the parameters of R7, and the inputs still to come. Plain data. -/

namespace Sys2Proof.Machine

/-- Phases of the CRC-8 generator (R34). -/
inductive CrcPhase where
  | idle | run
  deriving DecidableEq, Repr

/-- Phases of the COBS encoder (R34). -/
inductive EncPhase where
  | idle | run | final
  deriving DecidableEq, Repr

/-- Phases of the COBS decoder (R34). -/
inductive DecPhase where
  | idle | run
  deriving DecidableEq, Repr

/-- Phases of the packet framer (R34); `resync` is the model's own, for `send_reset_sequence` on the framer's TX port
(R96, R213, log 10). -/
inductive FramerPhase where
  | idle | cmd | crc | stuff | term | resync
  deriving DecidableEq, Repr

/-- Phases of the packet deframer (R34). -/
inductive DeframerPhase where
  | idle | recv | split | unstuff | check
  deriving DecidableEq, Repr

/-- The registers of a CRC-8 generator: the standalone unit, or the copy inside the framer or the deframer (R21, R22). -/
structure CrcRegs where
  /-- `crc_acc` (R22). -/
  acc   : Byte
  /-- How many payload bytes have been taken; the model's own cursor (R117, log 10). -/
  i     : Nat
  phase : CrcPhase
  deriving DecidableEq, Repr

/-- The registers of a COBS encoder (R24 to R26, R21). -/
structure EncRegs where
  /-- `enc_code`, the length of the current block, code byte included (R24). -/
  code  : Byte
  /-- The valid entries of `enc_blk`, indices `0 .. enc_code-2`; the others hold no value (R25). -/
  blk   : Bytes
  /-- `enc_out` of standalone `stuff`; in the framer the output is the TX stream (R26). -/
  out   : Bytes
  /-- How many input bytes have been taken by standalone `stuff`; the model's own cursor (log 10). -/
  i     : Nat
  phase : EncPhase
  deriving DecidableEq, Repr

/-- The registers of a COBS decoder (R27, R28, R21). -/
structure DecRegs where
  /-- `dec_r`, the read cursor: the start of the block being decoded (R27). -/
  r     : Nat
  /-- `dec_code`: the code of the open block; no value between blocks (R28). -/
  code  : Option Byte
  /-- How many data bytes of the open block have been copied; the model's own (R159, log 10). -/
  got   : Nat
  /-- `dec_out`, the output so far (R28). -/
  out   : Bytes
  phase : DecPhase
  deriving DecidableEq, Repr

/-- The registers of the packet framer (R29, R21, R179). -/
structure FramerRegs where
  phase  : FramerPhase
  /-- `frm_crc` (R29). -/
  frmCrc : Byte
  /-- `frm_i`, the index of the next byte of `payload ++ [frm_crc]` (R29). -/
  i      : Nat
  /-- The bytes of a closed block not yet written; the model's own (R173, R180, log 10). -/
  flush  : Bytes
  crc    : CrcRegs
  enc    : EncRegs
  deriving DecidableEq, Repr

/-- The registers of the packet deframer (R31, R32, R21); `rx_len` is the length of `buf`. -/
structure DeframerRegs where
  phase   : DeframerPhase
  /-- `rx_buf` (R31). -/
  buf     : Bytes
  /-- `rx_cmd` (R32). -/
  cmd     : Byte
  /-- `rx_dec` (R32). -/
  rxDec   : Bytes
  decoder : DecRegs
  crc     : CrcRegs
  deriving DecidableEq, Repr

/-- The `err` output (R35, R230, R231); its three-bit code is `ErrKind.code`. -/
inductive ErrKind where
  | none | allocationFailure | invalidEncoding | crcMismatch | malformedAck | transportFailure
  deriving DecidableEq, Repr

/-- The result value of an operation (R36, the "result out" column of R96). -/
inductive Result where
  /-- No value: an operation without one, or a failure (R243). -/
  | nothing
  | byte (b : Byte)
  | bytes (bs : Bytes)
  | packet (command : Byte) (payload : Bytes)
  deriving DecidableEq, Repr

/-- What a failure records beside its kind; diagnostic only, no operation reads it (R233, D18, log 20). -/
inductive Diag where
  | none
  /-- `InvalidEncoding`: the cursor of the bad block. -/
  | cursor (r : Nat)
  /-- `CrcMismatch`: the computed and the received CRC byte. -/
  | crcs (expected got : Byte)
  /-- `MalformedAck`: the payload length was wrong. -/
  | ackLength
  /-- `MalformedAck`: the command was wrong. -/
  | ackCommand
  /-- `AllocationFailure`: `rx_len`. -/
  | bufLen (n : Nat)
  deriving DecidableEq, Repr

/-- What the outside does next (R16, R36, R53, R260; log 2). -/
inductive Input where
  /-- A start request, run as a function to its end or to a pending read (R18), or an element of the line. -/
  | word (w : InputWord)
  /-- A start request that only starts; later steps are the unit's own (the step machine of R18). -/
  | launch (opsel : BitVec 4) (operands : Operands)
  /-- Nothing from outside: the block takes its next step. -/
  | run
  /-- The caller, who owns the payload array, writes one byte of it while the operation runs (R54, R276, log 30). -/
  | rewrite (index : Nat) (b : Byte)
  /-- The transport is permanently gone (R53). -/
  | gone
  /-- Reset of the block, or an upset (R261, R264). -/
  | reset
  deriving DecidableEq, Repr

/-- The state of the machine. -/
structure State where
  /-- The parameters of R7; no step changes them (log 1). -/
  params : Config.Params
  /-- What the outside still does, first thing first (log 2). -/
  inputs : List Input
  /-- The running operation with its operands; `busy` is 1 exactly while there is one (R17, R36). -/
  op     : Option Instr
  crc    : CrcRegs
  enc    : EncRegs
  dec    : DecRegs
  frm    : FramerRegs
  dfr    : DeframerRegs
  /-- The flag `ok` (R35). -/
  ok     : Bool
  /-- The error kind `err` (R35). -/
  err    : ErrKind
  result : Result
  diag   : Diag
  /-- The TX stream (R52). -/
  tx     : Bytes
  /-- The bytes of the RX stream that have arrived and are not read (R53). -/
  rx     : Bytes
  /-- "the transport is permanently gone" (R53). -/
  rxGone : Bool
  deriving DecidableEq, Repr

/-- Reasons a step ends in a fault. No state a run from reset reaches raises one (log 26). -/
inductive Fault where
  /-- Raised by a unit's step that would read an entry that holds no value (R38). Safe: the machine stops. -/
  | noValue
  /-- Raised by a unit's step whose phase register does not belong to the running operation (R34). Safe: the machine stops. -/
  | brokenSequence
  deriving DecidableEq, Repr

/-- Reasons for which a step has no meaning. -/
inductive Refusal where
  /-- Raised by an arm of `exec` for an instruction without a meaning yet. Safe. -/
  | notModelled (mnemonic : String)
  /-- Raised by a start while an operation runs (R67, D20). Safe: nothing can be claimed about it. -/
  | startWhileBusy
  /-- Raised by a start with a select code `0x9` to `0xF` (R96, D20). Safe. -/
  | reservedOpsel
  /-- Raised by a start of `stuff` or `unstuff` whose capacity is below the produced length (R141, R156, D6). Safe. -/
  | capTooSmall
  /-- Raised by a start of `stuff` or `unstuff` with overlapping buffers (R57, D6). Safe. -/
  | overlappingBuffers
  /-- Raised by a start of `read_until_sequence` with an empty sequence (R215, D16). Safe. -/
  | emptySequence
  /-- Raised by a start whose operand is longer than a finite `LEN_W` allows (R7, D12, U16). Safe. -/
  | operandTooLong
  /-- Raised by a reading operation whose buffer outgrows a finite `LEN_W` (D12, U16, log 14). Safe. -/
  | lengthBeyondLenW
  /-- Raised by a launch of an instruction that is a wire element (R96, R97). Safe. -/
  | notAnOperation
  /-- Raised by an element of a decoder's input, or the CRC byte, at a position that is not its own (R97). Safe. -/
  | elementOutOfPlace
  /-- Raised by a line input whose bytes are not the element of its position (R80 to R94). Safe. -/
  | undecodable (why : Reject)
  deriving DecidableEq, Repr

/-- R38: `crc_acc` 0x00, phase IDLE. -/
def CrcRegs.reset : CrcRegs := { acc := 0x00, i := 0, phase := .idle }

/-- R38: `enc_code` 1, no valid entry in `enc_blk`, phase IDLE. -/
def EncRegs.reset : EncRegs := { code := 1, blk := [], out := [], i := 0, phase := .idle }

/-- R38: `dec_r` 0, `dec_code` no value, `dec_out` empty, phase IDLE. -/
def DecRegs.reset : DecRegs := { r := 0, code := none, got := 0, out := [], phase := .idle }

/-- R38: `frm_i` 0, phase IDLE; `frm_crc` has no value there and is 0x00 here (log 5). -/
def FramerRegs.reset : FramerRegs :=
  { phase := .idle, frmCrc := 0x00, i := 0, flush := [], crc := CrcRegs.reset, enc := EncRegs.reset }

/-- R38: `rx_buf` and `rx_dec` empty, phase IDLE; `rx_cmd` has no value there and is 0x00 here (log 5). -/
def DeframerRegs.reset : DeframerRegs :=
  { phase := .idle, buf := [], cmd := 0x00, rxDec := [], decoder := DecRegs.reset, crc := CrcRegs.reset }

/-- The machine right after reset (R38, R261, R262), with empty streams (log 6) and the default parameters (R7). -/
def State.reset : State :=
  { params := Config.Params.default
    inputs := []
    op := none
    crc := CrcRegs.reset
    enc := EncRegs.reset
    dec := DecRegs.reset
    frm := FramerRegs.reset
    dfr := DeframerRegs.reset
    ok := true
    err := .none
    result := .nothing
    diag := .none
    tx := []
    rx := []
    rxGone := false }

end Sys2Proof.Machine
end

