-- ==== Sys2Proof/Machine/Flags.lean ====
section
/-! DEFINITION. The flags of the block, `ok` and `err` (R35): what an operation writes into them when it ends. -/

namespace Sys2Proof.Machine

/-- `err[2:0]` (R231); 6 and 7 are never produced. -/
def ErrKind.code : ErrKind → BitVec 3
  | .none => 0
  | .allocationFailure => 1
  | .invalidEncoding => 2
  | .crcMismatch => 3
  | .malformedAck => 4
  | .transportFailure => 5

/-- `ok <- 1`, `err` none, with the result value (R35, R36). -/
def State.setSuccess (result : Result) (s : State) : State :=
  { s with ok := true, err := .none, result := result, diag := .none }

/-- `ok <- 0`, `err <- kind`, no result value (R35, R243), with the diagnostic (R233). -/
def State.setFailure (kind : ErrKind) (diag : Diag) (s : State) : State :=
  { s with ok := false, err := kind, result := .nothing, diag := diag }

end Sys2Proof.Machine
end

