-- ==== Sys2Proof/Machine/Ops.lean ====
section
/-! DEFINITION. The named operations: the two transport primitives (R52, R53), the end of an operation, raising a failure,
and the reset of the block. -/

namespace Sys2Proof.Machine

/-- The outcome of a step of this machine. -/
abbrev Out := Host.Outcome State Fault Refusal

/-- Go on from a next state; a fault or a refusal stays. -/
def Out.andThen (o : Out) (k : State → Out) : Out :=
  match o with
  | .next s => k s
  | .fault f => .fault f
  | .refused r => .refused r

/-- `busy`: an operation is in progress (R36). -/
def State.busy (s : State) : Bool := s.op.isSome

/-- `write_byte(b)`: append `b` to the TX stream (R52). -/
def State.writeByte (b : Byte) (s : State) : State := { s with tx := s.tx ++ [b] }

/-- A sequence of `write_byte` events, in order (R59, R68). -/
def State.writeBytes (bs : Bytes) (s : State) : State := bs.foldl (fun s b => s.writeByte b) s

/-- What the RX source answers to one `read_byte` (R53). -/
inductive ReadAnswer where
  | byte (b : Byte) (rest : Bytes)
  | nothingYet
  | fail
  deriving DecidableEq, Repr

/-- `read_byte()`: the oldest unread byte; with none, nothing yet, or `Fail` once the transport is gone (R53, log 3). -/
def State.readByte (s : State) : ReadAnswer :=
  match s.rx with
  | b :: rest => .byte b rest
  | [] => if s.rxGone then .fail else .nothingYet

/-- The RX stream without the bytes that were read: reading is destructive (R64). -/
def State.withRx (rest : Bytes) (s : State) : State := { s with rx := rest }

/-- The transport becomes permanently gone (R53). -/
def State.loseTransport (s : State) : State := { s with rxGone := true }

/-- The units an operation runs on (R1, the "unit" column of R96). -/
inductive UnitName where
  | crc | enc | dec | framer | deframer
  deriving DecidableEq, Repr

/-- The registers of a unit at the end of its operation: released, which is to say at their reset values (R20, R200,
R244, log 7). The other units are untouched. -/
def State.release (u : UnitName) (s : State) : State :=
  match u with
  | .crc => { s with op := none, crc := CrcRegs.reset }
  | .enc => { s with op := none, enc := EncRegs.reset }
  | .dec => { s with op := none, dec := DecRegs.reset }
  | .framer => { s with op := none, frm := FramerRegs.reset }
  | .deframer => { s with op := none, dfr := DeframerRegs.reset }

/-- `return Ok(v)`: the operation ends with success and result `v` (R14, R35). -/
def State.endOk (u : UnitName) (result : Result) (s : State) : State :=
  (s.release u).setSuccess result

/-- `raise E(info)`: the operation ends with failure (R14). Its unit is released, control is back with the caller, nothing
is written to TX, no result is delivered (R243, R244, R245). The one operation through which every failure goes. -/
def State.raiseFailure (u : UnitName) (kind : ErrKind) (diag : Diag) (s : State) : State :=
  (s.release u).setFailure kind diag

/-- Reset of the block, also in the middle of an operation: the operation is abandoned without an outcome, every register
takes its reset value, the transport is untouched (R261 to R264). The parameters belong to the machine (R7), the
inputs to the outside. -/
def State.blockReset (s : State) : State :=
  { State.reset with params := s.params, inputs := s.inputs, tx := s.tx, rx := s.rx, rxGone := s.rxGone }

end Sys2Proof.Machine
end

