-- ==== Sys2Proof/Machine/Crc8.lean ====
section
/-! DEFINITION. The CRC-8 generator: its arithmetic (R110 to R113) and its unit's steps (R117). -/

namespace Sys2Proof.Machine

/-- One of the eight rounds: bit 7 is tested before the shift, the shift drops it (R110). -/
def crcRound (a : Byte) : Byte :=
  if a.getLsbD 7 then (a <<< 1) ^^^ Config.crcPoly else a <<< 1

/-- One byte into the accumulator: xor, then eight rounds (R111). -/
def crcByte (a b : Byte) : Byte :=
  crcRound (crcRound (crcRound (crcRound (crcRound (crcRound (crcRound (crcRound (a ^^^ b))))))))

/-- `calc_crc(payload)`: `crc_byte` folded from index 0 upward, initial value `CRC_INIT`, no final xor (R112, R113). -/
def calcCrc (payload : Bytes) : Byte := payload.foldl crcByte Config.crcInit

/-- `CRC_START`: `crc_acc <- 0x00`, phase RUN (R117). -/
def CrcRegs.start : CrcRegs := { acc := Config.crcInit, i := 0, phase := .run }

/-- `CRC_BYTE`, the next payload byte in index order; `none` when the payload is exhausted (R117). -/
def CrcRegs.takeByte (payload : Bytes) (r : CrcRegs) : Option CrcRegs :=
  match payload[r.i]? with
  | some b => some { r with acc := crcByte r.acc b, i := r.i + 1 }
  | none => none

/-- One step of the standalone unit: `CRC_BYTE`, or `CRC_END` (R117). -/
def tickCalcCrc (payload : Bytes) (s : State) : Out :=
  match s.crc.phase with
  | .idle => .fault .brokenSequence
  | .run =>
    match s.crc.takeByte payload with
    | some r => .next { s with crc := r }
    | none => .next (s.endOk .crc (.byte s.crc.acc))

end Sys2Proof.Machine
end

