-- ==== Sys2Proof/Machine/CobsDecoder.lean ====
section
/-! DEFINITION. The COBS decoder: one block (R151 to R154), the function `unstuff` (R151), and the registers' steps, block by
block and byte by byte (R159). -/

namespace Sys2Proof.Machine

/-- Start: cursor 0, no open block, empty output, phase RUN (R151). -/
def DecRegs.start : DecRegs := { r := 0, code := none, got := 0, out := [], phase := .run }

/-- Whether a block of this code at cursor `r` is bad: a zero code (R152), or one that runs past the end (R153). -/
def badBlock (n r : Nat) (code : Byte) : Bool := code == 0 || decide (n < r + code.toNat)

/-- The `0x00` reinserted after a block: only if its code is below 255 and input remains (R154). -/
def reinserted (n rAfter : Nat) (code : Byte) : Bytes :=
  if code ≠ Config.maxBlock ∧ rAfter < n then [Config.delim] else []

/-- The loop of `unstuff`, one block an iteration (R151). The fuel is the input's length: every block takes at least one
byte, so it never runs out before the input does. An error carries the cursor of the bad block (R233). -/
def unstuffFrom (input : Bytes) : Nat → Nat → Bytes → Except Nat Bytes
  | 0, _, out => .ok out
  | fuel + 1, r, out =>
    match input[r]? with
    | none => .ok out
    | some code =>
      if badBlock input.length r code then .error r
      else unstuffFrom input fuel (r + code.toNat)
        (out ++ (input.drop (r + 1)).take (code.toNat - 1) ++ reinserted input.length (r + code.toNat) code)

/-- `unstuff(input)` (R151). -/
def unstuff (input : Bytes) : Except Nat Bytes := unstuffFrom input input.length 0 []

/-- The open block of this code is complete: the cursor passes it, a `0x00` is reinserted as R154 says. -/
def DecRegs.completeBlock (n : Nat) (code : Byte) (d : DecRegs) : DecRegs :=
  { d with r := d.r + code.toNat, code := none, got := 0, out := d.out ++ reinserted n (d.r + code.toNat) code }

/-- What one element does to a decoder. -/
inductive DecStep where
  /-- The decoder goes on with these registers. -/
  | go (d : DecRegs)
  /-- `InvalidEncoding` at this cursor (R152, R153). -/
  | bad (r : Nat)
  /-- The element is not at its position (R97). -/
  | outOfPlace
  deriving DecidableEq, Repr

/-- `DEC_BLOCK`: one whole block (R151, R159). -/
def DecRegs.block (n : Nat) (code : Byte) (data : Bytes) (d : DecRegs) : DecStep :=
  match d.code with
  | some _ => .outOfPlace
  | none =>
    if badBlock n d.r code || decide (data.length + 1 < code.toNat) then .bad d.r
    else .go ({ d with out := d.out ++ data.take (code.toNat - 1) }.completeBlock n code)

/-- The code byte of a block alone: the block is open, or complete at once when it has no data (R151, byte-serial R159). -/
def DecRegs.openBlock (n : Nat) (code : Byte) (d : DecRegs) : DecStep :=
  match d.code with
  | some _ => .outOfPlace
  | none =>
    if badBlock n d.r code then .bad d.r
    else if code = 1 then .go (d.completeBlock n code)
    else .go { d with code := some code, got := 0 }

/-- One data byte of the open block, copied verbatim, a `0x00` too (R151, R157, byte-serial R159). -/
def DecRegs.dataByte (n : Nat) (b : Byte) (d : DecRegs) : DecStep :=
  match d.code with
  | none => .outOfPlace
  | some code =>
    if code.toNat ≤ d.got + 2 then .go ({ d with out := d.out ++ [b] }.completeBlock n code)
    else .go { d with out := d.out ++ [b], got := d.got + 1 }

/-- The element of the input that the decoder reads next: a whole block where one stands; a code alone where it is bad;
a data byte inside an open block; nothing at the end of the input (R151, R159). -/
def DecRegs.nextElement (input : Bytes) (d : DecRegs) : Option Instr :=
  match d.code with
  | some _ => (input[d.r + 1 + d.got]?).map .cobsData
  | none =>
    match input[d.r]? with
    | none => none
    | some code =>
      if badBlock input.length d.r code then some (decodeCode code)
      else some (.cobsBlock code ((input.drop (d.r + 1)).take (code.toNat - 1)))

end Sys2Proof.Machine
end

