-- ==== Sys2Proof/Machine/CobsEncoder.lean ====
section
/-! DEFINITION. The COBS encoder: the steps of R132 to R135 and the function they make (R136). A step answers the registers
after it and the bytes it emits; where they go (`enc_out` or the TX stream) is the user's matter (R134, R143). -/

namespace Sys2Proof.Machine

/-- Start: an empty block, an empty output, phase RUN (R132). -/
def EncRegs.start : EncRegs := { code := 1, blk := [], out := [], i := 0, phase := .run }

/-- `close()`: emit the code byte, then the data bytes; a new, empty block (R134). -/
def EncRegs.close (r : EncRegs) : EncRegs × Bytes := ({ r with code := 1, blk := [] }, r.code :: r.blk)

/-- Append a byte to the current block (R133). -/
def EncRegs.append (b : Byte) (r : EncRegs) : EncRegs := { r with blk := r.blk ++ [b], code := r.code + 1 }

/-- `ENC_BYTE(b)` in the literal, normative reading: at most one close, then the byte if it is not `0x00` (R133, D4). -/
def EncRegs.byteLiteral (b : Byte) (r : EncRegs) : EncRegs × Bytes :=
  let closed := if b = Config.delim ∨ r.code = Config.maxBlock then r.close else (r, [])
  if b = Config.delim then closed else (closed.1.append b, closed.2)

/-- `ENC_BYTE(b)` in the optional reading of C1: a block is closed as soon as it is full (90_conflicts.md C1, U8). -/
def EncRegs.byteCloseOnFill (b : Byte) (r : EncRegs) : EncRegs × Bytes :=
  if b = Config.delim then r.close
  else if (r.append b).code = Config.maxBlock then (r.append b).close
  else (r.append b, [])

/-- `ENC_BYTE(b)` under the cap rule of the machine (R133, D4). -/
def EncRegs.byte (rule : Config.CapRule) (b : Byte) (r : EncRegs) : EncRegs × Bytes :=
  match rule with
  | .literal => r.byteLiteral b
  | .closeOnFill => r.byteCloseOnFill b

/-- `ENC_BYTE` for each byte in index order, then the final `close()`: all that is emitted (R133, R135). -/
def encodeFrom (rule : Config.CapRule) (r : EncRegs) : Bytes → Bytes
  | [] => r.close.2
  | b :: rest => (r.byte rule b).2 ++ encodeFrom rule (r.byte rule b).1 rest

/-- `stuff(input)` under a cap rule (R136). -/
def stuffWith (rule : Config.CapRule) (input : Bytes) : Bytes := encodeFrom rule EncRegs.start input

/-- `stuff(input)` as the spec defines it: the literal cap rule (R136, D4). -/
def stuff (input : Bytes) : Bytes := stuffWith .literal input

/-- One step of the standalone unit: `ENC_BYTE` into `enc_out` while input is left, then the final close and the result
(R133 to R135). -/
def tickStuff (input : Bytes) (s : State) : Out :=
  match s.enc.phase with
  | .idle => .fault .brokenSequence
  | .run =>
    match input[s.enc.i]? with
    | some b =>
      let step := s.enc.byte s.params.capRule b
      .next { s with enc := { step.1 with out := s.enc.out ++ step.2, i := s.enc.i + 1 } }
    | none => .next { s with enc := { s.enc with phase := .final } }
  | .final => .next (s.endOk .enc (.bytes (s.enc.out ++ s.enc.close.2)))

end Sys2Proof.Machine
end

