-- ==== Sys2Proof/Machine/Operands.lean ====
section
/-! DEFINITION. The operand forms: operand lengths (R7), output capacities and buffers (R57, R141, R156), the sought
sequence (R215), and which starts are refused (R67, R96). -/

namespace Sys2Proof.Machine

/-- An operation after its caller has written byte `index` of the payload array it reads (R54). The array keeps its length;
an index outside it is not in the payload. Only `encode_and_send` has a payload the rules let change while it runs: every
other operand is fixed for the duration of its operation (R17, log 30). -/
def rewriteOperand (index : Nat) (b : Byte) : Instr → Instr
  | .encodeAndSend command payload => .encodeAndSend command (payload.set index b)
  | .calcCrc payload => .calcCrc payload
  | .stuff input out => .stuff input out
  | .unstuff input out => .unstuff input out
  | .receiveAndDecode => .receiveAndDecode
  | .sendAck command => .sendAck command
  | .waitAck expected => .waitAck expected
  | .sendResetSequence => .sendResetSequence
  | .readUntilSequence seq => .readUntilSequence seq
  | .reservedOpsel code => .reservedOpsel code
  | .frameE command => .frameE command
  | .frameP command region => .frameP command region
  | .frameCommand command => .frameCommand command
  | .frameDelim => .frameDelim
  | .cobsBlock code data => .cobsBlock code data
  | .cobsCodeShort code => .cobsCodeShort code
  | .cobsCodeFull => .cobsCodeFull
  | .cobsCodeZero => .cobsCodeZero
  | .cobsData data => .cobsData data
  | .crcByte crc => .crcByte crc
  | .resetSequence => .resetSequence

/-- The caller writes a byte of the payload array; no unit ever does (R54). -/
def State.rewritePayload (index : Nat) (b : Byte) (s : State) : State :=
  { s with op := s.op.map (rewriteOperand index b) }

/-- A length a finite `LEN_W` can hold: at most `2^LEN_W - 1` (R7, D12). -/
def fitsLenW (p : Config.Params) (n : Nat) : Bool :=
  match p.lenW with
  | none => true
  | some w => decide (n < 2 ^ w)

/-- The precondition `cap >= len(output)`; vacuous for a streaming output (R141, R156). -/
def capHolds (out : OutBuf) (n : Nat) : Bool :=
  match out.cap with
  | none => true
  | some cap => decide (n ≤ cap)

/-- The allocation bound `len + len // 254 + 1` (R137, R141, C2). -/
def allocationBound (n : Nat) : Nat := n + n / Config.maxBlockData + 1

/-- The last `len(seq)` bytes of the buffer are `seq` (R215). -/
def tailMatches (buf seq : Bytes) : Bool :=
  decide (seq.length ≤ buf.length) && buf.drop (buf.length - seq.length) == seq

/-- The buffer conditions of a start that produces `n` bytes (R57, R141, R156). -/
def bufferRefusal (out : OutBuf) (n : Nat) : Option Refusal :=
  if out.overlapsInput then some .overlappingBuffers
  else if capHolds out n then none
  else some .capTooSmall

/-- Whether the operand of a start is longer than `LEN_W` allows (R7). -/
def lengthRefusal (p : Config.Params) (operand : Bytes) : Option Refusal :=
  if fitsLenW p operand.length then none else some .operandTooLong

/-- Why a start with these operands is refused in an idle block. A failing `unstuff` produces nothing, so its capacity is
not asked about (log 13). DESIGN CHOICE: a finite `LEN_W` bounds the operands alone (D12, U16), not the output of `stuff`,
which the spec leaves open (log 31). -/
def operandRefusal (p : Config.Params) : Instr → Option Refusal
  | .calcCrc payload => lengthRefusal p payload
  | .stuff input out => (lengthRefusal p input).or (bufferRefusal out (stuffWith p.capRule input).length)
  | .unstuff input out =>
    (lengthRefusal p input).or
      (match unstuff input with
      | .ok output => bufferRefusal out output.length
      | .error _ => bufferRefusal out 0)
  | .encodeAndSend _ payload => lengthRefusal p payload
  | .receiveAndDecode => none
  | .sendAck _ => none
  | .waitAck _ => none
  | .sendResetSequence => none
  | .readUntilSequence seq => if seq.isEmpty then some .emptySequence else lengthRefusal p seq
  | .reservedOpsel _ => some .reservedOpsel
  | .frameE _ => some .notAnOperation
  | .frameP _ _ => some .notAnOperation
  | .frameCommand _ => some .notAnOperation
  | .frameDelim => some .notAnOperation
  | .cobsBlock _ _ => some .notAnOperation
  | .cobsCodeShort _ => some .notAnOperation
  | .cobsCodeFull => some .notAnOperation
  | .cobsCodeZero => some .notAnOperation
  | .cobsData _ => some .notAnOperation
  | .crcByte _ => some .notAnOperation
  | .resetSequence => some .notAnOperation

/-- Why a start is refused in this state, if it is: an operation in progress (R67), or its operands. -/
def startRefusal (i : Instr) (s : State) : Option Refusal :=
  if s.busy then some .startWhileBusy else operandRefusal s.params i

/-- Run a start that is not refused. -/
def unlessRefused (i : Instr) (s : State) (run : Out) : Out :=
  match startRefusal i s with
  | some r => .refused r
  | none => run

end Sys2Proof.Machine
end

