-- ==== Sys2Proof/Machine/Codec.lean ====
section
/-! DEFINITION. The meanings of the pure operations `calc_crc`, `stuff` and `unstuff` as functions (R18), and of a reserved
select code. None of them touches a stream (R115, R130, R150). -/

namespace Sys2Proof.Machine

/-- `calc_crc(payload)` (R112): the result is the CRC; it cannot fail (R234). -/
def execCalcCrc (payload : Bytes) (s : State) : Out :=
  unlessRefused (.calcCrc payload) s (.next (s.endOk .crc (.byte (calcCrc payload))))

/-- `stuff(input)` (R136); it cannot fail (R142), a start with a bad buffer is refused (R57, R141). `LEN_W` does not
bound its output (log 31). -/
def execStuff (input : Bytes) (out : OutBuf) (s : State) : Out :=
  unlessRefused (.stuff input out) s (.next (s.endOk .enc (.bytes (stuffWith s.params.capRule input))))

/-- `unstuff(input)` (R151): the decoded bytes, or `InvalidEncoding` with nothing delivered (R152, R153, R158). -/
def execUnstuff (input : Bytes) (out : OutBuf) (s : State) : Out :=
  unlessRefused (.unstuff input out) s
    (match unstuff input with
    | .ok output => .next (s.endOk .dec (.bytes output))
    | .error r => .next (s.raiseFailure .dec .invalidEncoding (.cursor r)))

/-- A select code `0x9` to `0xF`: the start is refused, "no state change, no meaning in the model" (R96). -/
def execReservedOpsel (_code : BitVec 4) (_s : State) : Out := .refused .reservedOpsel

end Sys2Proof.Machine
end

