-- ==== Sys2Proof/Machine/Deframer.lean ====
section
/-! DEFINITION. The packet deframer: reception (R191, R201, R207, R215), decoding (R193 to R199, R208), what each reading
operation makes of it (R199, R211, R215), the meaning of a reading operation as a function, and the unit's steps (R209). -/

namespace Sys2Proof.Machine

/-- An operation that decodes one frame. -/
inductive FrameReader where
  /-- `receive_and_decode()` (R190). -/
  | packet
  /-- `wait_ack(expected)` (R211). -/
  | ack (expected : Byte)
  deriving DecidableEq, Repr

/-- An operation that reads the RX stream. -/
inductive Reader where
  | frame (reader : FrameReader)
  /-- `read_until_sequence(seq)` (R215). -/
  | sequence (seq : Bytes)
  deriving DecidableEq, Repr

/-- The instruction a reader runs for. -/
def Reader.instr : Reader → Instr
  | .frame .packet => .receiveAndDecode
  | .frame (.ack expected) => .waitAck expected
  | .sequence seq => .readUntilSequence seq

/-- Whether reading ends with this buffer: at the delimiter just appended (R191), or at the sought sequence (R215). -/
def Reader.ends (rd : Reader) (buf : Bytes) : Bool :=
  match rd with
  | .frame _ => buf.getLast? == some Config.delim
  | .sequence seq => tailMatches buf seq

/-- What one byte read does to the receive buffer. -/
inductive Received where
  /-- `AllocationFailure`: no room for the byte (R201). -/
  | overflow
  /-- The buffer would outgrow a finite `LEN_W` (log 14). -/
  | beyondLenW
  | more (buf : Bytes)
  | complete (buf : Bytes)
  deriving DecidableEq, Repr

/-- Whether the buffer is full: `rx_len = RX_BUF_MAX` (R191, R201). -/
def bufFull (p : Config.Params) (buf : Bytes) : Bool :=
  match p.rxBufMax with
  | none => false
  | some m => decide (m ≤ buf.length)

/-- A byte has been read: fail if there is no room, else append it, and stop where the reader stops (R191, R201, R215). -/
def receiveByte (p : Config.Params) (rd : Reader) (buf : Bytes) (b : Byte) : Received :=
  if bufFull p buf then .overflow
  else if !fitsLenW p (buf.length + 1) then .beyondLenW
  else if rd.ends (buf ++ [b]) then .complete (buf ++ [b])
  else .more (buf ++ [b])

/-- How reading all that has arrived ends. -/
inductive Scan where
  /-- The reader stopped with this buffer; the rest is unread. -/
  | complete (buf rest : Bytes)
  /-- `AllocationFailure` with this fill; the rest is unread (R201). -/
  | overflow (len : Nat) (rest : Bytes)
  | beyondLenW
  /-- Everything that had arrived is in the buffer and the reader wants more (R192). -/
  | dry (buf : Bytes)
  deriving DecidableEq, Repr

/-- `RECV` over the bytes that have arrived (R191, R215). -/
def scan (p : Config.Params) (rd : Reader) (buf : Bytes) : Bytes → Scan
  | [] => .dry buf
  | b :: rest =>
    match receiveByte p rd buf b with
    | .overflow => .overflow buf.length rest
    | .beyondLenW => .beyondLenW
    | .more buf' => scan p rd buf' rest
    | .complete buf' => .complete buf' rest

/-- The body of a received frame: what stands before the delimiter (R193). -/
def frameBody (buf : Bytes) : Bytes := buf.dropLast

/-- The decoded region: its last byte against the CRC of the bytes before it (R197, R198). -/
def checkDecoded (d : Bytes) : Except (ErrKind × Diag) Bytes :=
  match d.getLast? with
  | none => .error (.invalidEncoding, .none)
  | some crc =>
    if calcCrc d.dropLast = crc then .ok d.dropLast
    else .error (.crcMismatch, .crcs (calcCrc d.dropLast) crc)

/-- A received frame, delimiter included, as a packet or a failure; the tests in the order of R208 (R194 to R198, R202). -/
def deframe (buf : Bytes) : Except (ErrKind × Diag) (Byte × Bytes) :=
  match frameBody buf with
  | [] => .error (.invalidEncoding, .none)
  | [command] => .ok (command, [])
  | command :: region =>
    match unstuff region with
    | .error r => .error (.invalidEncoding, .cursor r)
    | .ok d => (checkDecoded d).map fun payload => (command, payload)

/-- A packet has been decoded: `receive_and_decode` delivers it (R199); `wait_ack` tests the length, then the command
(R211, R242). -/
def conclude (reader : FrameReader) (command : Byte) (payload : Bytes) (s : State) : State :=
  match reader with
  | .packet => s.endOk .deframer (.packet command payload)
  | .ack expected =>
    if !payload.isEmpty then s.raiseFailure .deframer .malformedAck .ackLength
    else if command ≠ expected then s.raiseFailure .deframer .malformedAck .ackCommand
    else s.endOk .deframer .nothing

/-- Reading is complete with this buffer: the outcome of the operation (R208, R211, R215). -/
def concludeBuffer (rd : Reader) (buf : Bytes) (s : State) : State :=
  match rd with
  | .sequence _ => s.endOk .deframer (.bytes buf)
  | .frame reader =>
    match deframe buf with
    | .error (kind, diag) => s.raiseFailure .deframer kind diag
    | .ok (command, payload) => conclude reader command payload s

/-- The deframer at the start of reading: phase RECV, an empty buffer (R191). -/
def DeframerRegs.start : DeframerRegs := { DeframerRegs.reset with phase := .recv }

/-- The state in which a reading operation waits for its next byte (R192, R252). -/
def State.waiting (rd : Reader) (buf : Bytes) (s : State) : State :=
  { s with op := some rd.instr, dfr := { DeframerRegs.start with buf := buf } }

/-- A reading operation as a function of what has arrived: its outcome; a failure of the transport; or, with nothing left
and the transport alive, the state that waits (R192, R201, R207, R208, R215). -/
def runReader (rd : Reader) (s : State) : Out :=
  match scan s.params rd [] s.rx with
  | .complete buf rest => .next (concludeBuffer rd buf (s.withRx rest))
  | .overflow len rest => .next ((s.withRx rest).raiseFailure .deframer .allocationFailure (.bufLen len))
  | .beyondLenW => .refused .lengthBeyondLenW
  | .dry buf =>
    if s.rxGone then .next ((s.withRx []).raiseFailure .deframer .transportFailure .none)
    else .next ((s.withRx []).waiting rd buf)

/-- `receive_and_decode()` (R190 to R208). -/
def execReceiveAndDecode (s : State) : Out :=
  unlessRefused .receiveAndDecode s (runReader (.frame .packet) s)

/-- The stuffed region of the frame in `rx_buf`: the input of the deframer's decoder (R195, R28). -/
def DeframerRegs.region (d : DeframerRegs) : Bytes := (frameBody d.buf).drop 1

/-- A byte of the RX stream reaches the reading operation (R191, R209, R215). -/
def takeReceived (rd : Reader) (b : Byte) (s : State) : Out :=
  match receiveByte s.params rd s.dfr.buf b with
  | .overflow => .next (s.raiseFailure .deframer .allocationFailure (.bufLen s.dfr.buf.length))
  | .beyondLenW => .refused .lengthBeyondLenW
  | .more buf => .next { s with dfr := { s.dfr with buf := buf } }
  | .complete buf =>
    match rd with
    | .sequence _ => .next (s.endOk .deframer (.bytes buf))
    | .frame _ => .next { s with dfr := { s.dfr with buf := buf, phase := .split } }

/-- One step of phase RECV: a `read_byte`; while there is nothing yet, a step that changes nothing (R191, R192, R252). -/
def tickRecv (rd : Reader) (s : State) : Out :=
  match s.readByte with
  | .byte b rest => takeReceived rd b (s.withRx rest)
  | .nothingYet => .next s
  | .fail => .next (s.raiseFailure .deframer .transportFailure .none)

/-- Phase SPLIT: no command (R202), a bare command (R194), or a region to unstuff (R195). -/
def tickSplit (reader : FrameReader) (s : State) : Out :=
  match s.dfr.buf with
  | [] => .fault .noValue
  | _ :: _ =>
    match frameBody s.dfr.buf with
    | [] => .next (s.raiseFailure .deframer .invalidEncoding .none)
    | [command] => .next (conclude reader command [] s)
    | command :: _ =>
      .next { s with dfr := { s.dfr with cmd := command, phase := .unstuff, decoder := DecRegs.start } }

/-- The end of phase UNSTUFF, when the decoder has no element left: an empty result is an error (R197), another goes to
CHECK (R198). -/
def tickUnstuffEnd (s : State) : Out :=
  match s.dfr.decoder.code with
  | some _ => .fault .noValue
  | none =>
    if s.dfr.decoder.out.isEmpty then .next (s.raiseFailure .deframer .invalidEncoding .none)
    else
      .next { s with dfr :=
        { s.dfr with
          phase := .check, rxDec := s.dfr.decoder.out
          decoder := { s.dfr.decoder with phase := .idle }, crc := CrcRegs.start } }

/-- The CRC byte meets the CRC computed over the payload (R198). -/
def checkCrcByte (reader : FrameReader) (crc : Byte) (s : State) : State :=
  if s.dfr.crc.acc = crc then conclude reader s.dfr.cmd s.dfr.rxDec.dropLast s
  else s.raiseFailure .deframer .crcMismatch (.crcs s.dfr.crc.acc crc)

/-- Whether the deframer is at the point where the CRC byte is compared: its CRC pass has ended (R198). -/
def DeframerRegs.atCrcByte (d : DeframerRegs) : Bool :=
  d.phase == .check && decide (d.rxDec.dropLast.length ≤ d.crc.i)

/-- One step of phase CHECK: a byte of the CRC pass; at its end the comparison with the last decoded byte (R198). -/
def tickCheck (reader : FrameReader) (s : State) : Out :=
  match s.dfr.crc.takeByte s.dfr.rxDec.dropLast with
  | some r => .next { s with dfr := { s.dfr with crc := r } }
  | none =>
    match s.dfr.rxDec.getLast? with
    | some crc => .next (checkCrcByte reader crc s)
    | none => .fault .noValue

/-- One step of the deframer (R209). In UNSTUFF the decoder's elements are taken by `exec`; here is only its end. -/
def tickDeframer (rd : Reader) (s : State) : Out :=
  match s.dfr.phase, rd with
  | .recv, rd => tickRecv rd s
  | .split, .frame reader => tickSplit reader s
  | .unstuff, .frame _ => tickUnstuffEnd s
  | .check, .frame reader => tickCheck reader s
  | .idle, _ => .fault .brokenSequence
  | .split, .sequence _ => .fault .brokenSequence
  | .unstuff, .sequence _ => .fault .brokenSequence
  | .check, .sequence _ => .fault .brokenSequence

end Sys2Proof.Machine
end

