-- ==== Sys2Proof/Machine/Framer.lean ====
section
/-! DEFINITION. The packet framer: the frame of a packet (R171, R172), its meaning as a function, and the unit's steps, one
`write_byte` a step so that every prefix of a frame is a state of the machine (R173, R180). -/

namespace Sys2Proof.Machine

/-- The stuffed region of a non-empty payload: `stuff(payload ++ [crc])` (R89, R172). -/
def stuffedRegion (rule : Config.CapRule) (payload : Bytes) : Bytes := stuffWith rule (payload ++ [calcCrc payload])

/-- The bytes `encode_and_send` writes: format E for an empty payload (R171), format P for another (R172). -/
def frameOf (rule : Config.CapRule) (command : Byte) (payload : Bytes) : Bytes :=
  if payload.isEmpty then [command, Config.delim]
  else command :: stuffedRegion rule payload ++ [Config.delim]

/-- `encode_and_send(command, payload)` (R170 to R173); it cannot fail (R175). -/
def execEncodeAndSend (command : Byte) (payload : Bytes) (s : State) : Out :=
  unlessRefused (.encodeAndSend command payload) s
    (.next ((s.writeBytes (frameOf s.params.capRule command payload)).endOk .framer .nothing))

/-- The framer at the start of `encode_and_send` or `send_ack`: phase CMD (R174). -/
def FramerRegs.start : FramerRegs := { FramerRegs.reset with phase := .cmd }

/-- The framer at the start of `send_reset_sequence`: the seven bytes to write (R213). -/
def FramerRegs.startResync : FramerRegs := { FramerRegs.reset with phase := .resync, flush := Config.resetSeq }

/-- Give one byte of `payload ++ [frm_crc]` to the framer's encoder; what it emits goes to `flush` (R172). -/
def FramerRegs.encode (rule : Config.CapRule) (b : Byte) (f : FramerRegs) : FramerRegs :=
  { f with enc := (f.enc.byte rule b).1, flush := (f.enc.byte rule b).2 }

/-- Give the last byte, the CRC, to the framer's encoder: the encoder is then at its final close (R172, R135). -/
def FramerRegs.encodeCrc (rule : Config.CapRule) (crc : Byte) (f : FramerRegs) : FramerRegs :=
  let g := f.encode rule crc
  { g with enc := { g.enc with phase := .final } }

/-- Whether the framer is at the point where the CRC byte is the next byte to stuff (R172). -/
def FramerRegs.atCrcByte (payload : Bytes) (f : FramerRegs) : Bool :=
  f.phase == .stuff && f.flush.isEmpty && f.enc.phase == .run && decide (payload.length ≤ f.i)

/-- One step of phase STUFF: a byte of the block being flushed; else the next byte to stuff; else the final close; else
on to TERM (R172, R173). -/
def tickStuffPhase (payload : Bytes) (s : State) : Out :=
  match s.frm.flush with
  | b :: rest => .next { s.writeByte b with frm := { s.frm with flush := rest } }
  | [] =>
    match s.frm.enc.phase with
    | .run =>
      match payload[s.frm.i]? with
      | some b => .next { s with frm := { s.frm.encode s.params.capRule b with i := s.frm.i + 1 } }
      | none => .next { s with frm := s.frm.encodeCrc s.params.capRule s.frm.frmCrc }
    | .final =>
      .next { s with frm := { s.frm with flush := s.frm.enc.close.2, enc := { s.frm.enc.close.1 with phase := .idle } } }
    | .idle => .next { s with frm := { s.frm with phase := .term } }

/-- One step of the framer in `encode_and_send`, or in `send_ack` with an empty payload (R172, R174, R210). -/
def tickFramer (command : Byte) (payload : Bytes) (s : State) : Out :=
  match s.frm.phase with
  | .idle => .fault .brokenSequence
  | .resync => .fault .brokenSequence
  | .cmd =>
    if payload.isEmpty then .next { s.writeByte command with frm := { s.frm with phase := .term } }
    else .next { s.writeByte command with frm := { s.frm with phase := .crc, crc := CrcRegs.start } }
  | .crc =>
    match s.frm.crc.takeByte payload with
    | some r => .next { s with frm := { s.frm with crc := r } }
    | none =>
      .next { s with frm :=
        { s.frm with
          phase := .stuff, frmCrc := s.frm.crc.acc, i := 0, flush := []
          crc := { s.frm.crc with phase := .idle }, enc := EncRegs.start } }
  | .stuff => tickStuffPhase payload s
  | .term => .next ((s.writeByte Config.delim).endOk .framer .nothing)

/-- One step of `send_reset_sequence`: one byte of the sequence (R213). -/
def tickResync (s : State) : Out :=
  match s.frm.phase with
  | .resync =>
    match s.frm.flush with
    | b :: c :: rest => .next { s.writeByte b with frm := { s.frm with flush := c :: rest } }
    | [b] => .next ((s.writeByte b).endOk .framer .nothing)
    | [] => .fault .noValue
  | .idle => .fault .brokenSequence
  | .cmd => .fault .brokenSequence
  | .crc => .fault .brokenSequence
  | .stuff => .fault .brokenSequence
  | .term => .fault .brokenSequence

end Sys2Proof.Machine
end

