-- ==== Sys2Proof/Machine/AckResync.lean ====
section
/-! DEFINITION. The ACK and resync sequences (46_ack_resync.md): they add no datapath, each is a sequence over the framer's
TX port or the deframer (R216). -/

namespace Sys2Proof.Machine

/-- `send_ack(command)`: the frame of an empty-payload packet (R210). -/
def execSendAck (command : Byte) (s : State) : Out :=
  unlessRefused (.sendAck command) s
    (.next ((s.writeBytes (frameOf s.params.capRule command [])).endOk .framer .nothing))

/-- `wait_ack(expected)`: one full decode and the two tests (R211). -/
def execWaitAck (expected : Byte) (s : State) : Out :=
  unlessRefused (.waitAck expected) s (runReader (.frame (.ack expected)) s)

/-- `send_reset_sequence()`: the seven bytes (R213). -/
def execSendResetSequence (s : State) : Out :=
  unlessRefused .sendResetSequence s (.next ((s.writeBytes Config.resetSeq).endOk .framer .nothing))

/-- `read_until_sequence(seq)`: every byte read, the sought sequence included (R215). -/
def execReadUntilSequence (seq : Bytes) (s : State) : Out :=
  unlessRefused (.readUntilSequence seq) s (runReader (.sequence seq) s)

end Sys2Proof.Machine
end

