-- ==== Sys2Proof/Machine/Wire.lean ====
section
/-! DEFINITION. The meanings of the wire elements (R97: their position identifies them). An element of the line is delivered
by the RX source: it answers a pending `read_byte`, or stays unread (R53, R240). The elements of a stuffed region are also
what a running decoder reads from its input (R151, R159), and the CRC byte is also what CHECK compares (R198) and what STUFF
encodes last (R172). -/

namespace Sys2Proof.Machine

/-- What a running operation does, with the operands its unit reads (the "unit" and "operands" columns of R96). -/
inductive Activity where
  | crc (payload : Bytes)
  | enc (input : Bytes)
  | dec (input : Bytes)
  | send (command : Byte) (payload : Bytes)
  | resync
  | read (reader : Reader)
  deriving DecidableEq, Repr

/-- The activity of an operation; a wire element or a reserved code is none (R96). -/
def activityOf : Instr → Option Activity
  | .calcCrc payload => some (.crc payload)
  | .stuff input _ => some (.enc input)
  | .unstuff input _ => some (.dec input)
  | .encodeAndSend command payload => some (.send command payload)
  | .receiveAndDecode => some (.read (.frame .packet))
  | .sendAck command => some (.send command [])
  | .waitAck expected => some (.read (.frame (.ack expected)))
  | .sendResetSequence => some .resync
  | .readUntilSequence seq => some (.read (.sequence seq))
  | .reservedOpsel _ => none
  | .frameE _ => none
  | .frameP _ _ => none
  | .frameCommand _ => none
  | .frameDelim => none
  | .cobsBlock _ _ => none
  | .cobsCodeShort _ => none
  | .cobsCodeFull => none
  | .cobsCodeZero => none
  | .cobsData _ => none
  | .crcByte _ => none
  | .resetSequence => none

/-- The activity of the block. -/
def State.activity (s : State) : Option Activity := s.op.bind activityOf

/-- The reader of a pending `read_byte`: an operation in RECV with nothing left to read (R53, R192). -/
def State.pendingRead (s : State) : Option Reader :=
  match s.activity with
  | some (.read rd) => if s.dfr.phase = .recv ∧ s.rx = [] then some rd else none
  | some (.crc _) => none
  | some (.enc _) => none
  | some (.dec _) => none
  | some (.send _ _) => none
  | some .resync => none
  | none => none

/-- The RX source delivers a byte: to the pending `read_byte`, or to the end of the RX stream; after the transport is
permanently gone nothing arrives (R53, R240, log 16). -/
def arriveByte (b : Byte) (s : State) : Out :=
  if s.rxGone then .next s
  else
    match s.pendingRead with
    | some rd => takeReceived rd b s
    | none => .next (s.withRx (s.rx ++ [b]))

/-- The RX source delivers bytes, in order (R59). -/
def arrive : Bytes → State → Out
  | [], s => .next s
  | b :: rest, s => (arriveByte b s).andThen (arrive rest)

/-- Which decoder is running. -/
inductive DecHome where
  | standalone | deframer
  deriving DecidableEq, Repr

/-- A running decoder: where it is, its input (R28), its registers. -/
structure ActiveDecoder where
  home  : DecHome
  input : Bytes
  regs  : DecRegs
  deriving DecidableEq, Repr

/-- The running decoder: the standalone one in RUN, or the deframer's in UNSTUFF (R34). -/
def State.activeDecoder (s : State) : Option ActiveDecoder :=
  match s.activity with
  | some (.dec input) =>
    if s.dec.phase = .run then some { home := .standalone, input := input, regs := s.dec } else none
  | some (.read (.frame _)) =>
    if s.dfr.phase = .unstuff then some { home := .deframer, input := s.dfr.region, regs := s.dfr.decoder } else none
  | some (.read (.sequence _)) => none
  | some (.crc _) => none
  | some (.enc _) => none
  | some (.send _ _) => none
  | some .resync => none
  | none => none

/-- The running decoder goes on with new registers. -/
def State.withDecoder (home : DecHome) (d : DecRegs) (s : State) : State :=
  match home with
  | .standalone => { s with dec := d }
  | .deframer => { s with dfr := { s.dfr with decoder := d } }

/-- The unit whose operation a decoder's failure ends (R152, R153, R196). -/
def DecHome.unit : DecHome → UnitName
  | .standalone => .dec
  | .deframer => .deframer

/-- What an element does to the running decoder, as a step of the machine (R152, R153, R158, R196). -/
def applyDecStep (home : DecHome) (step : DecStep) (s : State) : Out :=
  match step with
  | .go d => .next (s.withDecoder home d)
  | .bad r => .next (s.raiseFailure home.unit .invalidEncoding (.cursor r))
  | .outOfPlace => .refused .elementOutOfPlace

/-- A code byte: to the running decoder, or on the line. -/
def takeCode (code : Byte) (s : State) : Out :=
  match s.activeDecoder with
  | some a => applyDecStep a.home (a.regs.openBlock a.input.length code) s
  | none => arrive [code] s

/-- FRAME_E on the line: the command and the delimiter (R81). -/
def execFrameE (command : Byte) (s : State) : Out := arrive [command, Config.delim] s

/-- FRAME_P on the line: command, stuffed region, delimiter (R82). -/
def execFrameP (command : Byte) (region : Bytes) (s : State) : Out :=
  arrive (command :: region ++ [Config.delim]) s

/-- FRAME_COMMAND on the line: one raw byte (R83). -/
def execFrameCommand (command : Byte) (s : State) : Out := arrive [command] s

/-- FRAME_DELIM on the line: it ends the frame wherever it is read (R87, R191). -/
def execFrameDelim (s : State) : Out := arrive [Config.delim] s

/-- COBS_BLOCK: a whole block of the running decoder's input, `DEC_BLOCK` (R84, R151, R159); or its bytes on the line. -/
def execCobsBlock (code : Byte) (data : Bytes) (s : State) : Out :=
  match s.activeDecoder with
  | some a => applyDecStep a.home (a.regs.block a.input.length code data) s
  | none => arrive (code :: data) s

/-- COBS_CODE_SHORT: `code - 1` data bytes follow, then a `0x00` is implied if input remains (R85, R154). -/
def execCobsCodeShort (code : Byte) (s : State) : Out := takeCode code s

/-- COBS_CODE_FULL: 254 data bytes follow and no `0x00` is implied (R85, R86). -/
def execCobsCodeFull (s : State) : Out := takeCode Config.maxBlock s

/-- COBS_CODE_ZERO: reserved; a decoder that reads it fails (R92, R152). -/
def execCobsCodeZero (s : State) : Out := takeCode 0x00 s

/-- COBS_DATA: a literal byte of the running decoder's open block (R84, R157); or a byte on the line. -/
def execCobsData (data : Byte) (s : State) : Out :=
  match s.activeDecoder with
  | some a => applyDecStep a.home (a.regs.dataByte a.input.length data) s
  | none => arrive [data] s

/-- The bytes a CRC byte is on the line: itself, but `0x00` is elided like any other zero (R89, log 17). -/
def crcOnLine (crc : Byte) : Bytes := if crc = Config.delim then [] else [crc]

/-- CRC_BYTE: compared in CHECK (R198), stuffed last in STUFF (R172), else a byte of the line (R89). -/
def execCrcByte (crc : Byte) (s : State) : Out :=
  match s.activity with
  | some (.send _ payload) =>
    if s.frm.atCrcByte payload then .next { s with frm := s.frm.encodeCrc s.params.capRule crc }
    else arrive (crcOnLine crc) s
  | some (.read (.frame reader)) =>
    if s.dfr.atCrcByte then .next (checkCrcByte reader crc s)
    else if s.dfr.phase = .check then .refused .elementOutOfPlace
    else arrive (crcOnLine crc) s
  | some (.read (.sequence _)) => arrive (crcOnLine crc) s
  | some (.crc _) => arrive (crcOnLine crc) s
  | some (.enc _) => arrive (crcOnLine crc) s
  | some (.dec _) => arrive (crcOnLine crc) s
  | some .resync => arrive (crcOnLine crc) s
  | none => arrive (crcOnLine crc) s

/-- RESET_SEQUENCE on the line: seven bytes; the block has no detector for it (R94, R214). -/
def execResetSequence (s : State) : Out := arrive Config.resetSeq s

end Sys2Proof.Machine
end

