-- ==== Sys2Proof/Machine/Units.lean ====
section
/-! DEFINITION. The step machine (R18): starting an operation without running it, and one step of the unit that runs
(R117, R132 to R135, R159, R172, R174, R209). -/

namespace Sys2Proof.Machine

/-- The state at the start of an operation: it is in progress, its unit holds its start values (R20, R36, R117, R132, R151,
R174, R191). -/
def State.begun (i : Instr) (s : State) : State :=
  match activityOf i with
  | some (.crc _) => { s with op := some i, crc := CrcRegs.start }
  | some (.enc _) => { s with op := some i, enc := EncRegs.start }
  | some (.dec _) => { s with op := some i, dec := DecRegs.start }
  | some (.send _ _) => { s with op := some i, frm := FramerRegs.start }
  | some .resync => { s with op := some i, frm := FramerRegs.startResync }
  | some (.read _) => { s with op := some i, dfr := DeframerRegs.start }
  | none => s

/-- `start(op, operands)` alone (R36); refused as R67, R96 and the operand rules say. -/
def begin (i : Instr) (s : State) : Out := unlessRefused i s (.next (s.begun i))

/-- The end of standalone `unstuff`, when the decoder has no element left: `DEC_END` (R159). -/
def tickUnstuff (s : State) : Out :=
  match s.dec.phase, s.dec.code with
  | .idle, _ => .fault .brokenSequence
  | .run, some _ => .fault .noValue
  | .run, none => .next (s.endOk .dec (.bytes s.dec.out))

/-- The element that the running unit takes next from a decoder's input, from `rx_dec` or from `frm_crc`. -/
def State.nextElement (s : State) : Option Instr :=
  match s.activity with
  | some (.dec input) => if s.dec.phase = .run then s.dec.nextElement input else none
  | some (.read (.frame _)) =>
    if s.dfr.phase = .unstuff then s.dfr.decoder.nextElement s.dfr.region
    else if s.dfr.atCrcByte then s.dfr.rxDec.getLast?.map .crcByte
    else none
  | some (.send _ payload) => if s.frm.atCrcByte payload then some (.crcByte s.frm.frmCrc) else none
  | some (.read (.sequence _)) => none
  | some (.crc _) => none
  | some (.enc _) => none
  | some .resync => none
  | none => none

/-- One step of the running unit that takes no element; an idle block does nothing (R262). -/
def tick (s : State) : Out :=
  match s.op with
  | none => .next s
  | some i =>
    match activityOf i with
    | some (.crc payload) => tickCalcCrc payload s
    | some (.enc input) => tickStuff input s
    | some (.dec _) => tickUnstuff s
    | some (.send command payload) => tickFramer command payload s
    | some .resync => tickResync s
    | some (.read rd) => tickDeframer rd s
    | none => .fault .brokenSequence

/-- While a unit reads elements of its own (a decoder, CHECK, STUFF), what the RX source delivers only arrives: "Byte
arrival does not interrupt anything" (R240). -/
def State.readsOwnElements (s : State) : Bool :=
  s.activeDecoder.isSome || s.dfr.phase == .check || s.frm.phase == .stuff

/-- The bytes of a line word, if it only arrives in this state (R240); a CRC byte `0x00` is elided (R89). -/
def State.arrivesOnly (w : InputWord) (s : State) : Option Bytes :=
  match w with
  | .start _ _ => none
  | .line pos bytes =>
    if s.readsOwnElements then some (if pos = .crc then bytes.filter (· != Config.delim) else bytes) else none

end Sys2Proof.Machine
end

