-- ==== Sys2Proof/Machine/Dispatch.lean ====
section
/-! DEFINITION. One arm per instruction: the meaning of each row of spec/opcode_table.json. -/

namespace Sys2Proof.Machine

def exec (i : Instr) (s : State) : Host.Outcome State Fault Refusal :=
  match i with
  | .calcCrc payload => Sys2Proof.Machine.execCalcCrc payload s
  | .stuff input out => Sys2Proof.Machine.execStuff input out s
  | .unstuff input out => Sys2Proof.Machine.execUnstuff input out s
  | .encodeAndSend command payload => Sys2Proof.Machine.execEncodeAndSend command payload s
  | .receiveAndDecode => Sys2Proof.Machine.execReceiveAndDecode s
  | .sendAck command => Sys2Proof.Machine.execSendAck command s
  | .waitAck expected => Sys2Proof.Machine.execWaitAck expected s
  | .sendResetSequence => Sys2Proof.Machine.execSendResetSequence s
  | .readUntilSequence seq => Sys2Proof.Machine.execReadUntilSequence seq s
  | .reservedOpsel code => Sys2Proof.Machine.execReservedOpsel code s
  | .frameE command => Sys2Proof.Machine.execFrameE command s
  | .frameP command region => Sys2Proof.Machine.execFrameP command region s
  | .frameCommand command => Sys2Proof.Machine.execFrameCommand command s
  | .frameDelim => Sys2Proof.Machine.execFrameDelim s
  | .cobsBlock code data => Sys2Proof.Machine.execCobsBlock code data s
  | .cobsCodeShort code => Sys2Proof.Machine.execCobsCodeShort code s
  | .cobsCodeFull => Sys2Proof.Machine.execCobsCodeFull s
  | .cobsCodeZero => Sys2Proof.Machine.execCobsCodeZero s
  | .cobsData data => Sys2Proof.Machine.execCobsData data s
  | .crcByte crc => Sys2Proof.Machine.execCrcByte crc s
  | .resetSequence => Sys2Proof.Machine.execResetSequence s

end Sys2Proof.Machine
end

