-- ==== Sys2Proof/Machine/Step.lean ====
section
/-! DEFINITION. One step of the machine: the next input, or, with nothing from outside, the running unit's own step. -/

namespace Sys2Proof.Machine

/-- The running unit's own step: the element it takes next, run by `exec`; else an internal step (R209). An idle block does
nothing (R262). -/
def advance (s : State) : Host.Outcome State Fault Refusal :=
  match s.nextElement with
  | some i => exec i s
  | none => tick s

/-- A word presented to the block: decoded and run by `exec`. A wire element that arrives while a unit reads elements of
its own only joins the RX stream (R240). -/
def runWord (w : InputWord) (s : State) : Host.Outcome State Fault Refusal :=
  match decode w with
  | .error why => .refused (.undecodable why)
  | .ok i =>
    match s.arrivesOnly w with
    | some bytes => arrive bytes s
    | none => exec i s

/-- One step (R16). -/
def step (s : State) : Host.Outcome State Fault Refusal :=
  match s.inputs with
  | [] => advance s
  | .run :: rest => advance { s with inputs := rest }
  | .word w :: rest => runWord w { s with inputs := rest }
  | .launch opsel operands :: rest => begin (decodeStart opsel operands) { s with inputs := rest }
  | .rewrite index b :: rest => .next ({ s with inputs := rest }.rewritePayload index b)
  | .gone :: rest => .next ({ s with inputs := rest }.loseTransport)
  | .reset :: rest => .next ({ s with inputs := rest }.blockReset)

/-- `k` of the running unit's own steps. -/
def advanceN : Nat → State → Host.Outcome State Fault Refusal
  | 0, s => .next s
  | k + 1, s =>
    match advance s with
    | .next t => advanceN k t
    | .fault f => .fault f
    | .refused r => .refused r

/-- `s` with the word of spec/opcode_table.json presented as the next input (log 18). -/
def State.withFetchWord (s : State) (nbits w : Nat) : State :=
  match tableWord nbits w with
  | some word => { s with inputs := .word word :: s.inputs }
  | none => s

end Sys2Proof.Machine
end

