-- ==== Sys2Proof/Safety.lean ====
section
/-! DEFINITION. What the claims speak of: the invariant of the machine, and the notions of the spec that its properties are
stated with (the literal loop of `stuff`, lost zeros, cap closes, COBS blocks). No meaning is defined through them. -/

namespace Sys2Proof.Machine

/-! ### Notions of the spec -/

/-- One turn of the loop of R136 on `(out, code, blk)`, with the code as a natural number as R12 has it. -/
def stuffTurn (st : Bytes × Nat × Bytes) (b : Byte) : Bytes × Nat × Bytes :=
  let closed := if b = 0x00 ∨ st.2.1 = 255 then (st.1 ++ [BitVec.ofNat 8 st.2.1] ++ st.2.2, 1, []) else st
  if b = 0x00 then closed else (closed.1, closed.2.1 + 1, closed.2.2 ++ [b])

/-- The loop of R136, written as the spec writes it. -/
def stuffLoop (input : Bytes) : Bytes :=
  let st := input.foldl stuffTurn ([], 1, [])
  st.1 ++ [BitVec.ofNat 8 st.2.1] ++ st.2.2

/-- The bytes of `x` that survive when the encoder stands at block length `code`: all but each `0x00` that is presented
while the block is full (R140). -/
def survivorsFrom (code : Nat) : Bytes → Bytes
  | [] => []
  | b :: rest =>
    if b = 0x00 then
      if code = 255 then survivorsFrom 1 rest else b :: survivorsFrom 1 rest
    else b :: survivorsFrom (if code = 255 then 2 else code + 1) rest

/-- `x` with exactly the lost zeros removed (R140). -/
def survivors (x : Bytes) : Bytes := survivorsFrom 1 x

/-- Whether a `0x00` is presented to the encoder while its block is full (R140). -/
def losesZeroFrom (code : Nat) : Bytes → Bool
  | [] => false
  | b :: rest =>
    if b = 0x00 then code == 255 || losesZeroFrom 1 rest
    else losesZeroFrom (if code = 255 then 2 else code + 1) rest

/-- `x` loses a zero: the round trip fails (R140). -/
def losesZero (x : Bytes) : Bool := losesZeroFrom 1 x

/-- `K` from block length `code`: the non-zero bytes that arrive while the block is full (R137). -/
def capClosesFrom (code : Nat) : Bytes → Nat
  | [] => 0
  | b :: rest =>
    if b = 0x00 then capClosesFrom 1 rest
    else if code = 255 then 1 + capClosesFrom 2 rest
    else capClosesFrom (code + 1) rest

/-- `K`, "the closes caused purely by hitting the 254-byte cap" (R137). -/
def capCloses (x : Bytes) : Nat := capClosesFrom 1 x

/-- A COBS block: its code and its data (R84). -/
abbrev Block := Byte × Bytes

/-- The code is the block's length (R84). -/
def blockFits (b : Block) : Bool := decide (b.2.length + 1 = b.1.toNat)

/-- The bytes of blocks, back to back (R84). -/
def blockBytes (bs : List Block) : Bytes := bs.flatMap fun b => b.1 :: b.2

/-- What blocks decode to: their data, with a `0x00` after every block but the last whose code is below 255 (R85, R154). -/
def joinBlocks : List Block → Bytes
  | [] => []
  | [b] => b.2
  | b :: c :: rest => b.2 ++ (if b.1 = 255 then [] else [0x00]) ++ joinBlocks (c :: rest)

/-- A receive buffer of `n` bytes is within `RX_BUF_MAX` and `LEN_W` (R7); always so with their default, infinity. -/
def roomFor (p : Config.Params) (n : Nat) : Bool :=
  (match p.rxBufMax with
    | none => true
    | some m => decide (n ≤ m)) && fitsLenW p n

/-- The bytes a wire element is on the line (R81 to R94); a CRC byte `0x00` is elided (R89). -/
def onLine : Instr → Bytes
  | .calcCrc _ => []
  | .stuff _ _ => []
  | .unstuff _ _ => []
  | .encodeAndSend _ _ => []
  | .receiveAndDecode => []
  | .sendAck _ => []
  | .waitAck _ => []
  | .sendResetSequence => []
  | .readUntilSequence _ => []
  | .reservedOpsel _ => []
  | .frameE command => [command, 0x00]
  | .frameP command region => [command] ++ region ++ [0x00]
  | .frameCommand command => [command]
  | .frameDelim => [0x00]
  | .cobsBlock code data => [code] ++ data
  | .cobsCodeShort code => [code]
  | .cobsCodeFull => [0xFF]
  | .cobsCodeZero => [0x00]
  | .cobsData data => [data]
  | .crcByte crc => if crc = 0x00 then [] else [crc]
  | .resetSequence => [0x00, 0x00, 0x00, 0x72, 0x00, 0x00, 0x00]

/-- A decoder is running on `input`: the standalone one, or the deframer's on the region of a received frame (R28, R195). -/
def decoderRuns (home : DecHome) (input : Bytes) (s : State) : Prop :=
  match home with
  | .standalone => (∃ out, s.op = some (.unstuff input out)) ∧ s.dec.phase = .run
  | .deframer =>
    (s.op = some .receiveAndDecode ∨ ∃ expected, s.op = some (.waitAck expected)) ∧
      s.dfr.phase = .unstuff ∧ s.dfr.region = input

/-- The registers of that decoder. -/
def decoderRegs (home : DecHome) (s : State) : DecRegs :=
  match home with
  | .standalone => s.dec
  | .deframer => s.dfr.decoder

/-- The operation of that decoder has failed with `InvalidEncoding` (R152, R153, R196, R243); its unit's registers are at
their reset values (log 7), the diagnostic is R233's (log 20). -/
def decoderFailed (home : DecHome) (diag : Diag) (s : State) : State :=
  match home with
  | .standalone =>
    { s with
      op := none, dec := DecRegs.reset
      ok := false, err := .invalidEncoding, diag := diag, result := .nothing }
  | .deframer =>
    { s with
      op := none, dfr := DeframerRegs.reset
      ok := false, err := .invalidEncoding, diag := diag, result := .nothing }

/-! ### The invariant -/

/-- R131: the block holds `enc_code - 1` valid bytes and none of them is `0x00`; under close-on-fill no block stays full. -/
def encGood (rule : Config.CapRule) (r : EncRegs) : Bool :=
  decide (r.blk.length + 1 = r.code.toNat) && noDelim r.blk && (rule == .literal || r.code != Config.maxBlock)

/-- R117: after `k` steps `CRC_BYTE` the accumulator is the CRC of the first `k` bytes. -/
def crcGood (payload : Bytes) (r : CrcRegs) : Bool :=
  r.phase == .run && decide (r.i ≤ payload.length) && r.acc == calcCrc (payload.take r.i)

/-- The standalone encoder in the middle of its operation: what is out and what is still to come make `stuff(input)`. -/
def encUnitGood (rule : Config.CapRule) (input : Bytes) (r : EncRegs) : Bool :=
  r.phase != .idle && encGood rule r && decide (r.i ≤ input.length) &&
    r.out ++ encodeFrom rule r (input.drop r.i) == stuffWith rule input

/-- A decoder in the middle of its operation: the cursor and an open block stay inside the input (R153), the output inside
what was read (R156). -/
def decGood (input : Bytes) (d : DecRegs) : Bool :=
  d.phase == .run && decide (d.r ≤ input.length) && decide (d.out.length ≤ d.r + d.got) &&
    (match d.code with
    | none => d.got == 0
    | some code => decide (d.got + 2 ≤ code.toNat) && decide (d.r + code.toNat ≤ input.length))

/-- The framer in the middle of `encode_and_send` or `send_ack` (R174), whatever its caller has done to the payload. -/
def framerGood (rule : Config.CapRule) (payload : Bytes) (f : FramerRegs) : Bool :=
  match f.phase with
  | .idle => false
  | .resync => false
  | .cmd => f == FramerRegs.start
  | .crc =>
    !payload.isEmpty && f.crc.phase == .run && decide (f.crc.i ≤ payload.length) && f.flush.isEmpty
  | .stuff =>
    !payload.isEmpty && decide (f.i ≤ payload.length) && encGood rule f.enc && noDelim f.flush
  | .term => f.flush.isEmpty

/-- The CRC of the framer is that of the payload as it stands: of the bytes taken so far, then of all of it (R172). It is so
unless the caller has changed the payload behind the CRC pass (R54). -/
def framerSteady (payload : Bytes) (f : FramerRegs) : Bool :=
  match f.phase with
  | .crc => f.crc.acc == calcCrc (payload.take f.crc.i)
  | .stuff => f.frmCrc == calcCrc payload
  | .idle => true
  | .cmd => true
  | .term => true
  | .resync => true

/-- The framer in the middle of `send_reset_sequence`: what is left of the seven bytes (R213). -/
def resyncGood (f : FramerRegs) : Bool :=
  f.phase == .resync && !f.flush.isEmpty && f.flush == Config.resetSeq.drop (Config.resetSeq.length - f.flush.length)

/-- A received frame: non-zero bytes and one `0x00` at the end (R56, R191). -/
def frameInBuf (buf : Bytes) : Bool := noDelim buf.dropLast && buf.getLast? == some 0x00

/-- The deframer in the middle of a reading operation (R56, R191, R195, R198). -/
def deframerGood (p : Config.Params) (rd : Reader) (d : DeframerRegs) : Bool :=
  (match p.rxBufMax with
    | none => true
    | some m => decide (d.buf.length ≤ m)) &&
  (match d.phase, rd with
    | .idle, _ => false
    | .recv, .frame _ => noDelim d.buf
    | .recv, .sequence seq => !seq.isEmpty && !tailMatches d.buf seq
    | .split, .frame _ => frameInBuf d.buf
    | .unstuff, .frame _ =>
      frameInBuf d.buf && decide (3 ≤ d.buf.length) && d.buf.head? == some d.cmd && decGood d.region d.decoder
    | .check, .frame _ =>
      frameInBuf d.buf && d.buf.head? == some d.cmd && !d.rxDec.isEmpty && crcGood d.rxDec.dropLast d.crc
    | .split, .sequence _ => false
    | .unstuff, .sequence _ => false
    | .check, .sequence _ => false)

/-- Units that run nothing hold their reset values (R20, R38); the running one is in the middle of its operation. -/
def unitsGood (s : State) : Bool :=
  match s.activity with
  | none =>
    s.op.isNone && s.crc == CrcRegs.reset && s.enc == EncRegs.reset && s.dec == DecRegs.reset &&
      s.frm == FramerRegs.reset && s.dfr == DeframerRegs.reset
  | some (.crc payload) =>
    crcGood payload s.crc && s.enc == EncRegs.reset && s.dec == DecRegs.reset &&
      s.frm == FramerRegs.reset && s.dfr == DeframerRegs.reset
  | some (.enc input) =>
    encUnitGood s.params.capRule input s.enc && s.crc == CrcRegs.reset && s.dec == DecRegs.reset &&
      s.frm == FramerRegs.reset && s.dfr == DeframerRegs.reset
  | some (.dec input) =>
    decGood input s.dec && s.crc == CrcRegs.reset && s.enc == EncRegs.reset &&
      s.frm == FramerRegs.reset && s.dfr == DeframerRegs.reset
  | some (.send _ payload) =>
    framerGood s.params.capRule payload s.frm && s.crc == CrcRegs.reset && s.enc == EncRegs.reset &&
      s.dec == DecRegs.reset && s.dfr == DeframerRegs.reset
  | some .resync =>
    resyncGood s.frm && s.crc == CrcRegs.reset && s.enc == EncRegs.reset && s.dec == DecRegs.reset &&
      s.dfr == DeframerRegs.reset
  | some (.read rd) =>
    deframerGood s.params rd s.dfr && s.crc == CrcRegs.reset && s.enc == EncRegs.reset &&
      s.dec == DecRegs.reset && s.frm == FramerRegs.reset

/-- No send is running, or its CRC is that of its payload as it stands (R54, R276). -/
def State.payloadSteady (s : State) : Bool :=
  match s.activity with
  | some (.send _ payload) => framerSteady payload s.frm
  | some (.crc _) => true
  | some (.enc _) => true
  | some (.dec _) => true
  | some .resync => true
  | some (.read _) => true
  | none => true

/-- The flags agree: success has no error kind (R35, R231), failure has no result value (R243). -/
def outcomeGood (s : State) : Bool := s.ok == (s.err == .none) && (s.ok || s.result == .nothing)

/-- The invariant of the machine. -/
def State.inv (s : State) : Bool := unitsGood s && outcomeGood s

end Sys2Proof.Machine
end

