-- ==== Sys2Proof/Certificates/Slice0/Obligations.lean ====
section
/-! DEFINITION. The statements about the machine, each from a rule of the spec. "Derived" in a docstring says that the spec
marks the rule as derived or as its own decision, or that the clause is the model's (with the log entry). -/

open Sys2Proof Sys2Proof.Machine

/-! ### Encoding -/

/-- R96, R97 and the encodings of 30_encoding.md: every well-formed instruction comes back from its encoding. -/
def Obligations.EncodedInstructionDecodesBack : Prop :=
  ∀ i : Instr, i.wf = true → decode (encode i) = .ok i

/-- Every line word that decodes is well-formed and is the encoding of what it decodes to: no two wire elements share a
word at one position, no bit is dropped (R97). -/
def Obligations.DecodedLineWordEncodesBack : Prop :=
  ∀ (pos : LinePos) (bytes : Bytes) (i : Instr), decode (.line pos bytes) = .ok i →
    i.wf = true ∧ i.isOp = false ∧ encode i = .line pos bytes

/-- Words written out from the spec: the select codes of R96, the frames of X2 and V-F2, the codes of R85 and R92, the reset
sequence of R94. A sanity statement. -/
def Obligations.ListedWordsDecode : Prop :=
  (∀ o : Operands,
    decode (.start 0x0 o) = .ok (.calcCrc o.seq) ∧
    decode (.start 0x1 o) = .ok (.stuff o.seq o.out) ∧
    decode (.start 0x2 o) = .ok (.unstuff o.seq o.out) ∧
    decode (.start 0x3 o) = .ok (.encodeAndSend o.command o.seq) ∧
    decode (.start 0x4 o) = .ok .receiveAndDecode ∧
    decode (.start 0x5 o) = .ok (.sendAck o.command) ∧
    decode (.start 0x6 o) = .ok (.waitAck o.command) ∧
    decode (.start 0x7 o) = .ok .sendResetSequence ∧
    decode (.start 0x8 o) = .ok (.readUntilSequence o.seq)) ∧
  decode (.line .frame [0x73, 0x00]) = .ok (.frameE 0x73) ∧
  decode (.line .frame [0x64, 0x02, 0xAA, 0x03, 0xBB, 0xC4, 0x00]) = .ok (.frameP 0x64 [0x02, 0xAA, 0x03, 0xBB, 0xC4]) ∧
  decode (.line .block [0x03, 0xBB, 0xC4]) = .ok (.cobsBlock 0x03 [0xBB, 0xC4]) ∧
  decode (.line .code [0x00]) = .ok .cobsCodeZero ∧
  decode (.line .code [0x01]) = .ok (.cobsCodeShort 0x01) ∧
  decode (.line .code [0xFE]) = .ok (.cobsCodeShort 0xFE) ∧
  decode (.line .code [0xFF]) = .ok .cobsCodeFull ∧
  decode (.line .resync [0x00, 0x00, 0x00, 0x72, 0x00, 0x00, 0x00]) = .ok .resetSequence

/-! ### Starting an operation -/

/-- Select codes `0x9` to `0xF` name no operation and their start is refused: "no state change, no meaning in the model"
(R96, the spec's decision D20). -/
def Obligations.ReservedSelectCodesAreRefused : Prop :=
  ∀ (code : BitVec 4) (o : Operands) (s : State), 9 ≤ code.toNat →
    decode (.start code o) = .ok (.reservedOpsel code) ∧ exec (.reservedOpsel code) s = .refused .reservedOpsel

/-- A start while an operation is in progress is refused, in both views (R67, the spec's decision D20). -/
def Obligations.StartWhileBusyIsRefused : Prop :=
  ∀ (i : Instr) (s : State), i.isOp = true → (∀ code, i ≠ .reservedOpsel code) → s.op ≠ none →
    exec i s = .refused .startWhileBusy ∧ begin i s = .refused .startWhileBusy

/-- The refused operands: an output buffer that overlaps the input or is too small (R57, R141, R156, D6), an empty sought
sequence (R215, D16), an operand longer than a finite `LEN_W` holds (R7, D12). Derived: the spec's decisions. -/
def Obligations.BadOperandsAreRefused : Prop :=
  ∀ (s : State) (input : Bytes) (command : Byte) (out : OutBuf), s.op = none →
    (∀ w, s.params.lenW = some w → 2 ^ w ≤ input.length →
      exec (.calcCrc input) s = .refused .operandTooLong ∧
      exec (.stuff input out) s = .refused .operandTooLong ∧
      exec (.unstuff input out) s = .refused .operandTooLong ∧
      exec (.encodeAndSend command input) s = .refused .operandTooLong ∧
      (input ≠ [] → exec (.readUntilSequence input) s = .refused .operandTooLong)) ∧
    (fitsLenW s.params input.length = true → out.overlapsInput = true →
      exec (.stuff input out) s = .refused .overlappingBuffers ∧
      exec (.unstuff input out) s = .refused .overlappingBuffers) ∧
    (∀ cap, fitsLenW s.params input.length = true → out.overlapsInput = false → out.cap = some cap →
      (s.params.capRule = .literal → cap < (stuff input).length →
        exec (.stuff input out) s = .refused .capTooSmall) ∧
      (∀ output, unstuff input = .ok output → cap < output.length →
        exec (.unstuff input out) s = .refused .capTooSmall)) ∧
    exec (.readUntilSequence []) s = .refused .emptySequence

/-! ### The CRC-8 generator -/

/-- R110, R111: the round on the value of the byte, the eight rounds of a byte, and the worked examples. -/
def Obligations.CrcRoundAndByteStep : Prop :=
  (∀ a : Byte, (crcRound a).toNat =
    if 128 ≤ a.toNat then (2 * a.toNat % 256) ^^^ 0x4D else 2 * a.toNat) ∧
  (∀ a b : Byte, crcByte a b = Nat.iterate crcRound 8 (a ^^^ b)) ∧
  crcRound 0x01 = 0x02 ∧ crcRound 0x80 = 0x4D ∧ crcRound 0xAA = 0x19 ∧ crcRound 0x00 = 0x00 ∧
  crcRound 0x19 = 0x32 ∧ crcRound 0x32 = 0x64 ∧ crcRound 0x64 = 0xC8 ∧ crcRound 0xC8 = 0xDD ∧
  crcRound 0xDD = 0xF7 ∧ crcRound 0xF7 = 0xA3 ∧ crcRound 0xA3 = 0x0B ∧
  crcByte 0x00 0xAA = 0x0B

/-- `calc_crc` ends at once with the fold of `crc_byte` from `0x00`, `ok <- 1`, and changes nothing else; the empty payload
gives `0x00`; the worked example (derived: R112 and R114, but the reset values of the released unit, log 7, and the
cleared diagnostic, log 20, are the model's own). -/
def Obligations.CalcCrcResult : Prop :=
  (∀ (payload : Bytes) (s : State), s.op = none → fitsLenW s.params payload.length = true →
    exec (.calcCrc payload) s =
      .next { s with
        crc := CrcRegs.reset, ok := true, err := .none, diag := .none
        result := .byte (payload.foldl crcByte 0x00) }) ∧
  calcCrc [] = 0x00 ∧ calcCrc [0xAA] = 0x0B ∧ calcCrc [0xAA, 0x00] = 0x25 ∧ calcCrc [0xAA, 0x00, 0xBB] = 0xC4

/-- The laws of the CRC (R119, which the spec marks as derived): table form, a one-to-one table, linearity, leading zeros,
self-check. -/
def Obligations.CrcLaws : Prop :=
  (∀ a b : Byte, crcByte a b = crcByte 0x00 (a ^^^ b)) ∧
  (∀ a b : Byte, crcByte 0x00 a = crcByte 0x00 b → a = b) ∧
  (∀ p q : Bytes, p.length = q.length → calcCrc (List.zipWith (· ^^^ ·) p q) = calcCrc p ^^^ calcCrc q) ∧
  (∀ p : Bytes, calcCrc (0x00 :: p) = calcCrc p) ∧
  (∀ n : Nat, calcCrc (List.replicate n 0x00) = 0x00) ∧
  (∀ p : Bytes, calcCrc (p ++ [calcCrc p]) = 0x00)

/-- Two payloads of one length that differ in exactly one bit have different CRCs (R119 (e), derived in the spec). -/
def Obligations.CrcSeesEverySingleBit : Prop :=
  ∀ (p : Bytes) (i k : Nat) (b : Byte), p[i]? = some b → k < 8 →
    calcCrc (p.set i (b ^^^ (1 <<< k))) ≠ calcCrc p

/-! ### The COBS encoder -/

/-- `stuff` ends at once with its output and `ok <- 1`, and changes nothing else; under the literal cap rule, the spec's,
the output is that of the spec's own loop; the worked examples. The hypotheses on the buffer are R57 and R141. Derived:
R136, but the optional cap rule (log 19), that a finite `LEN_W` does not bound the output (log 31), the reset values of
the released unit (log 7) and the cleared diagnostic (log 20) are the model's own. -/
def Obligations.StuffResult : Prop :=
  (∀ (input : Bytes) (out : OutBuf) (s : State), s.op = none → fitsLenW s.params input.length = true →
    out.overlapsInput = false →
    (∀ cap, out.cap = some cap → (stuffWith s.params.capRule input).length ≤ cap) →
    exec (.stuff input out) s =
      .next { s with
        enc := EncRegs.reset, ok := true, err := .none, diag := .none
        result := .bytes (stuffWith s.params.capRule input) }) ∧
  (∀ input : Bytes, stuffWith .literal input = stuffLoop input) ∧
  stuffLoop [] = [0x01] ∧ stuffLoop [0x00] = [0x01, 0x01] ∧ stuffLoop [0x11] = [0x02, 0x11] ∧
  stuffLoop [0x11, 0x00] = [0x02, 0x11, 0x01] ∧ stuffLoop [0x00, 0x11] = [0x01, 0x02, 0x11] ∧
  stuffLoop [0x11, 0x22, 0x00, 0x33] = [0x03, 0x11, 0x22, 0x02, 0x33] ∧
  stuffLoop [0x11, 0x00, 0x00, 0x22] = [0x02, 0x11, 0x01, 0x02, 0x22] ∧
  stuffLoop [0xAA, 0x00, 0xBB, 0xC4] = [0x02, 0xAA, 0x03, 0xBB, 0xC4]

/-- No output of `stuff` contains `0x00`. Derived: R138 under the literal cap rule, the spec's; the same under the optional
one of 90_conflicts.md C1 is the model's own (log 19). -/
def Obligations.StuffOutputHasNoDelimiter : Prop :=
  ∀ (rule : Config.CapRule) (input : Bytes), (0x00 : Byte) ∉ stuffWith rule input

/-- The exact output length and its bounds (R137, derived in the spec). -/
def Obligations.StuffOutputLength : Prop :=
  ∀ input : Bytes,
    (stuff input).length = input.length + 1 + capCloses input ∧
    capCloses input ≤ (input.length - 1) / 254 ∧
    (stuff input).length ≤ input.length + input.length / 254 + 1 ∧
    (0 < input.length → 254 ∣ input.length →
      (stuff input).length < input.length + input.length / 254 + 1)

/-- The output is a concatenation of `Z + K + 1` blocks whose data are the non-zero bytes of the input in their order
(R139, derived in the spec). -/
def Obligations.StuffOutputIsBlocks : Prop :=
  ∀ input : Bytes, ∃ blocks : List Block,
    stuff input = blockBytes blocks ∧
    blocks.length = input.count 0x00 + capCloses input + 1 ∧
    (∀ b ∈ blocks, blockFits b = true ∧ noDelim b.2 = true) ∧
    blocks.flatMap (·.2) = input.filter (· != 0x00)

/-- The round trip, exactly (R140, derived in the spec): decoding always succeeds, gives the input without its lost zeros,
and loses none exactly when no maximal run of non-zero bytes before a `0x00` has a length that is a positive multiple of
254; so never within 254 bytes, and never without `0x00`. -/
def Obligations.RoundTripExactly : Prop :=
  ∀ x : Bytes,
    unstuff (stuff x) = .ok (survivors x) ∧
    (survivors x = x ↔ losesZero x = false) ∧
    (losesZero x = true ↔
      ∃ pre run rest, x = pre ++ run ++ 0x00 :: rest ∧ (pre = [] ∨ pre.getLast? = some 0x00) ∧
        (0x00 : Byte) ∉ run ∧ 0 < run.length ∧ 254 ∣ run.length) ∧
    (x.length ≤ 254 → survivors x = x) ∧
    ((0x00 : Byte) ∉ x → survivors x = x)

/-- Under the optional cap rule of 90_conflicts.md C1 the round trip holds for every input. -/
def Obligations.CloseOnFillRoundTrip : Prop :=
  ∀ x : Bytes, unstuff (stuffWith .closeOnFill x) = .ok x

/-- The encoder's registers stay legal through every step, and the bytes a step emits are non-zero (R131, derived in the
spec; the clause on close-on-fill is the model's, log 19). -/
def Obligations.EncoderStepsStayLegal : Prop :=
  ∀ (rule : Config.CapRule) (b : Byte) (r : EncRegs), encGood rule r = true →
    encGood rule (r.byte rule b).1 = true ∧ encGood rule r.close.1 = true ∧
    noDelim (r.byte rule b).2 = true ∧ noDelim r.close.2 = true ∧
    1 ≤ (r.byte rule b).1.code.toNat ∧ (r.byte rule b).1.blk.length ≤ 254

/-! ### The COBS decoder -/

/-- What `unstuff` makes of complete blocks, of a zero code after them, and of a truncated block after them (R151 to
R154); `ok`, `err` and the result follow, nothing else changes. Every input is one of these three. The model's own: a
failing `unstuff` is not asked for capacity (log 13), the reset values of the released unit (log 7), the diagnostic (log
20). -/
def Obligations.UnstuffResult : Prop :=
  (∀ (blocks : List Block) (rest : Bytes) (code : Byte) (out : OutBuf) (s : State),
    s.op = none → out.overlapsInput = false → (∀ b ∈ blocks, blockFits b = true) →
    (fitsLenW s.params (blockBytes blocks).length = true →
      (∀ cap, out.cap = some cap → (joinBlocks blocks).length ≤ cap) →
      exec (.unstuff (blockBytes blocks) out) s =
        .next { s with
          dec := DecRegs.reset, ok := true, err := .none, diag := .none
          result := .bytes (joinBlocks blocks) }) ∧
    (fitsLenW s.params (blockBytes blocks ++ 0x00 :: rest).length = true →
      ∃ d, exec (.unstuff (blockBytes blocks ++ 0x00 :: rest) out) s =
        .next { s with
          dec := DecRegs.reset, ok := false, err := .invalidEncoding, diag := d, result := .nothing }) ∧
    (fitsLenW s.params (blockBytes blocks ++ code :: rest).length = true → rest.length + 1 < code.toNat →
      ∃ d, exec (.unstuff (blockBytes blocks ++ code :: rest) out) s =
        .next { s with
          dec := DecRegs.reset, ok := false, err := .invalidEncoding, diag := d, result := .nothing })) ∧
  (∀ input : Bytes, ∃ blocks : List Block, (∀ b ∈ blocks, blockFits b = true) ∧
    (input = blockBytes blocks ∨
      (∃ rest, input = blockBytes blocks ++ 0x00 :: rest) ∨
      ∃ code rest, rest.length + 1 < code.toNat ∧ input = blockBytes blocks ++ code :: rest)) ∧
  blockBytes [(0x02, [0xAA]), (0x03, [0xBB, 0xC4])] = [0x02, 0xAA, 0x03, 0xBB, 0xC4] ∧
  joinBlocks [(0x02, [0xAA]), (0x03, [0xBB, 0xC4])] = [0xAA, 0x00, 0xBB, 0xC4]

/-- The decoder's output is shorter than its input, so a capacity of `len` is enough (R156, the spec's decision D6). -/
def Obligations.UnstuffOutputBound : Prop :=
  ∀ input output : Bytes, unstuff input = .ok output →
    output.length ≤ input.length ∧ (input ≠ [] → output.length ≤ input.length - 1)

/-- What the decoder does not check (R157, derived in the spec): any data byte is copied, a `0x00` too, and a full block
followed by an empty one decodes as the full block alone. -/
def Obligations.UnstuffCopiesVerbatim : Prop :=
  (∀ data : Bytes, data.length ≤ 254 →
    unstuff (BitVec.ofNat 8 (data.length + 1) :: data) = .ok data) ∧
  (∀ data : Bytes, data.length = 254 → unstuff (0xFF :: data ++ [0x01]) = .ok data) ∧
  unstuff [0x03, 0x11, 0x00, 0x02, 0x22] = .ok [0x11, 0x00, 0x00, 0x22]

/-! ### The packet framer -/

/-- An empty payload is sent as the command and the delimiter, two bytes; nothing but the TX stream, the outcome and the
framer's own registers changes. Derived: R171, but the reset values of the framer's registers (log 7) and the cleared
diagnostic (log 20) are the model's own. -/
def Obligations.BareCommandFrame : Prop :=
  ∀ (command : Byte) (s : State), s.op = none →
    exec (.encodeAndSend command []) s =
      .next { s with
        tx := s.tx ++ [command, 0x00], frm := FramerRegs.reset
        ok := true, err := .none, diag := .none, result := .nothing }

/-- A non-empty payload is sent as `[command] ++ stuff(payload ++ [crc]) ++ [0x00]` (R172; the order of the writes is the
matter of InterruptedSendLeavesPrefix), under the cap rule of the machine (literal by the spec's decision D4). And a send
whose caller rewrites the payload between the two passes (after the CRC pass has read its last byte, before the stuffing
pass reads its first) "carries a CRC of the first version and data of the second" (R54, derived in the spec; a change
byte by byte is log 30). The model's own: the step machine's steps (log 9, log 10), that a finite `LEN_W` does not bound
the stuffed bytes (log 31), the reset values of the framer's registers (log 7), the cleared diagnostic (log 20). -/
def Obligations.PayloadFrame : Prop :=
  (∀ (command : Byte) (payload : Bytes) (s : State), s.op = none → payload ≠ [] →
    fitsLenW s.params payload.length = true →
    exec (.encodeAndSend command payload) s =
      .next { s with
        tx := s.tx ++ [command] ++ stuffWith s.params.capRule (payload ++ [payload.foldl crcByte 0x00]) ++ [0x00]
        frm := FramerRegs.reset, ok := true, err := .none, diag := .none, result := .nothing }) ∧
  (∀ (command : Byte) (payload : Bytes) (rewrites : List (Nat × Byte)) (k : Nat) (s b : State), s.op = none →
    payload ≠ [] → (k = payload.length + 1 ∨ k = payload.length + 2) →
    begin (.encodeAndSend command payload) s = .next b →
    ∃ between m, advanceN k b = .next between ∧ between.op = some (.encodeAndSend command payload) ∧
      advanceN m (rewrites.foldl (fun u w => u.rewritePayload w.1 w.2) between) =
        .next { s with
          tx := s.tx ++ [command] ++
            stuffWith s.params.capRule
              (rewrites.foldl (fun p w => p.set w.1 w.2) payload ++ [payload.foldl crcByte 0x00]) ++ [0x00]
          frm := FramerRegs.reset, ok := true, err := .none, diag := .none, result := .nothing })

/-- With a non-zero command, what `encode_and_send` writes holds the delimiter exactly once, as its last byte; the stuffed
section never holds it, whatever the payload. Derived: R178 under the literal cap rule, the spec's; the same under the
optional one of 90_conflicts.md C1 is the model's own (log 19). -/
def Obligations.FrameHasOneDelimiter : Prop :=
  (∀ (command : Byte) (payload : Bytes) (s t : State), command ≠ 0x00 →
    exec (.encodeAndSend command payload) s = .next t →
    ∃ body, t.tx = s.tx ++ body ++ [0x00] ∧ (0x00 : Byte) ∉ body) ∧
  (∀ (rule : Config.CapRule) (payload : Bytes), (0x00 : Byte) ∉ stuffedRegion rule payload)

/-- The length of a frame (R176, derived in the spec). -/
def Obligations.FrameLength : Prop :=
  ∀ (command : Byte) (payload : Bytes),
    (payload = [] → (frameOf .literal command payload).length = 2) ∧
    (payload ≠ [] →
      (frameOf .literal command payload).length =
        payload.length + 4 + capCloses (payload ++ [calcCrc payload])) ∧
    (payload ≠ [] → payload.length ≤ 253 → (frameOf .literal command payload).length = payload.length + 4)

/-- An interrupted send (R180, derived in the spec, with R264): while a sending operation runs, the TX stream holds a
proper prefix of its bytes, without delimiter when it is a frame whose command is not `0x00`; every proper prefix is held
at some step; and a reset of the block leaves it there. The steps are the step machine's (log 9, log 10). -/
def Obligations.InterruptedSendLeavesPrefix : Prop :=
  ∀ (i : Instr) (bytes : Bytes) (s b : State), s.op = none →
    ((∃ command payload, i = .encodeAndSend command payload ∧ bytes = frameOf s.params.capRule command payload) ∨
      (∃ command, i = .sendAck command ∧ bytes = [command, 0x00]) ∨
      (i = .sendResetSequence ∧ bytes = [0x00, 0x00, 0x00, 0x72, 0x00, 0x00, 0x00])) →
    begin i s = .next b →
    (∀ k t, advanceN k b = .next t → t.op ≠ none →
      ∃ m, m < bytes.length ∧ t.tx = s.tx ++ bytes.take m ∧
        ((∃ command, command ≠ 0x00 ∧ ((∃ payload, i = .encodeAndSend command payload) ∨ i = .sendAck command)) →
          (0x00 : Byte) ∉ bytes.take m) ∧
        t.blockReset.tx = t.tx ∧ t.blockReset.op = none) ∧
    (∀ m, m < bytes.length → ∃ k t, advanceN k b = .next t ∧ t.op ≠ none ∧ t.tx = s.tx ++ bytes.take m)

/-- `send_ack` writes the command and the delimiter; it is `encode_and_send(command, [])`. Derived: R210, but the reset
values of the framer's registers (log 7) and the cleared diagnostic (log 20) are the model's own. -/
def Obligations.SendAckFrame : Prop :=
  ∀ (command : Byte) (s : State), s.op = none →
    exec (.sendAck command) s = exec (.encodeAndSend command []) s ∧
    exec (.sendAck command) s =
      .next { s with
        tx := s.tx ++ [command, 0x00], frm := FramerRegs.reset
        ok := true, err := .none, diag := .none, result := .nothing }

/-- The reset sequence is exactly these seven bytes, whatever was written before. Derived: R213, but the reset values of the
framer's registers (log 7) and the cleared diagnostic (log 20) are the model's own. -/
def Obligations.ResetSequenceBytes : Prop :=
  ∀ s : State, s.op = none →
    exec .sendResetSequence s =
      .next { s with
        tx := s.tx ++ [0x00, 0x00, 0x00, 0x72, 0x00, 0x00, 0x00], frm := FramerRegs.reset
        ok := true, err := .none, diag := .none, result := .nothing }

/-! ### The packet deframer -/

/-- One byte before the delimiter is a command with an empty payload, a success; the two bytes are consumed, no byte after
them. Derived: R194, but the reset values of the deframer's registers (log 7) and the cleared diagnostic (log 20) are the
model's own. -/
def Obligations.ReceiveBareCommand : Prop :=
  ∀ (command : Byte) (rest : Bytes) (s : State), s.op = none → roomFor s.params 2 = true →
    command ≠ 0x00 → s.rx = command :: 0x00 :: rest →
    exec .receiveAndDecode s =
      .next { s with
        rx := rest, dfr := DeframerRegs.reset
        ok := true, err := .none, diag := .none, result := .packet command [] }

/-- A region that decodes to `payload ++ [crc]` delivers the packet when the CRC agrees, and fails with `CrcMismatch` and no
payload when it does not; the frame is consumed, no byte after it. Derived: R198 and R199, but the reset values of the
deframer's registers (log 7) and where the diagnostic is kept (log 20) are the model's own. -/
def Obligations.ReceivePayloadFrame : Prop :=
  ∀ (command crc : Byte) (region payload rest : Bytes) (s : State), s.op = none →
    roomFor s.params (region.length + 2) = true → command ≠ 0x00 → region ≠ [] → (0x00 : Byte) ∉ region → unstuff region = .ok (payload ++ [crc]) →
    s.rx = command :: region ++ 0x00 :: rest →
    exec .receiveAndDecode s =
      .next (if calcCrc payload = crc then
        { s with
          rx := rest, dfr := DeframerRegs.reset
          ok := true, err := .none, diag := .none, result := .packet command payload }
      else
        { s with
          rx := rest, dfr := DeframerRegs.reset
          ok := false, err := .crcMismatch, diag := .crcs (calcCrc payload) crc, result := .nothing })

/-- What is not a frame fails with `InvalidEncoding` and is consumed whole: a lone delimiter (R202, the spec's decision
D8), a region that does not decode (R196), a region that decodes to nothing (R197, D9). The model's own: the reset values
of the deframer's registers (log 7) and the diagnostic (log 20). -/
def Obligations.ReceiveRejectsUndecodable : Prop :=
  ∀ (command : Byte) (region rest : Bytes) (s : State), s.op = none →
    (roomFor s.params 1 = true → s.rx = 0x00 :: rest →
      ∃ d, exec .receiveAndDecode s =
        .next { s with
          rx := rest, dfr := DeframerRegs.reset
          ok := false, err := .invalidEncoding, diag := d, result := .nothing }) ∧
    (roomFor s.params (region.length + 2) = true → command ≠ 0x00 → region ≠ [] → (0x00 : Byte) ∉ region →
      s.rx = command :: region ++ 0x00 :: rest →
      (unstuff region = .ok [] ∨ ∃ r, unstuff region = .error r) →
      ∃ d, exec .receiveAndDecode s =
        .next { s with
          rx := rest, dfr := DeframerRegs.reset
          ok := false, err := .invalidEncoding, diag := d, result := .nothing })

/-- With no delimiter on a live transport the operation reads all there is and waits: no outcome, and its own steps change
nothing, however many (R192, which says that there is no step then: log 24). Bytes that are no delimiter leave it
waiting, the delimiter ends reception (delivery by `arrive` is log 16); so does the loss of the transport, with a failure
(the spec's decision D10). The model's own: the reset values of the deframer's registers (log 7) and the diagnostic (log
20). -/
def Obligations.ReceiveWaitsForDelimiter : Prop :=
  ∀ s : State, s.op = none → roomFor s.params s.rx.length = true → s.rxGone = false → (0x00 : Byte) ∉ s.rx →
    ∃ t, exec .receiveAndDecode s = .next t ∧
      t = { s with
        op := some .receiveAndDecode, rx := []
        dfr := { DeframerRegs.reset with phase := .recv, buf := s.rx } } ∧
      (∀ k, advanceN k t = .next t) ∧
      (∀ more : Bytes, roomFor s.params (s.rx.length + more.length) = true → (0x00 : Byte) ∉ more →
        arrive more t = .next { t with dfr := { t.dfr with buf := s.rx ++ more } }) ∧
      (roomFor s.params (s.rx.length + 1) = true →
        arrive [0x00] t = .next { t with dfr := { t.dfr with buf := s.rx ++ [0x00], phase := .split } }) ∧
      advance t.loseTransport =
        .next { t with
          op := none, rxGone := true, dfr := DeframerRegs.reset
          ok := false, err := .transportFailure, diag := .none, result := .nothing }

/-- A transport that is gone ends the operation with failure (R207, R236, the spec's decision D10); all that had arrived is
consumed. The model's own: bytes that arrived before the loss are still read (log 3), the reset values of the deframer's
registers (log 7), the diagnostic (log 20). -/
def Obligations.ReceiveFailsWithTransport : Prop :=
  ∀ s : State, s.op = none → roomFor s.params s.rx.length = true → s.rxGone = true → (0x00 : Byte) ∉ s.rx →
    exec .receiveAndDecode s =
      .next { s with
        rx := [], dfr := DeframerRegs.reset
        ok := false, err := .transportFailure, diag := .none, result := .nothing }

/-- A full receive buffer fails after the byte that does not fit has been read: `RX_BUF_MAX + 1` bytes are consumed (R201,
the spec's decision D7); without a limit it never happens. A buffer that outgrows a finite `LEN_W` is refused (D12, log
14: the model's choice). The model's own, too: the reset values of the deframer's registers (log 7), where the diagnostic
is kept (log 20). The other readers: WaitAckResult, ReadUntilSequenceResult. -/
def Obligations.ReceiveBufferLimit : Prop :=
  (∀ (pre rest : Bytes) (b : Byte) (s : State), s.op = none →
    s.params.rxBufMax = some pre.length → fitsLenW s.params pre.length = true → (0x00 : Byte) ∉ pre →
    s.rx = pre ++ b :: rest →
    exec .receiveAndDecode s =
      .next { s with
        rx := rest, dfr := DeframerRegs.reset
        ok := false, err := .allocationFailure, diag := .bufLen pre.length, result := .nothing }) ∧
  (∀ s t : State, s.params.rxBufMax = none →
    exec .receiveAndDecode s = .next t → t.op = none → t.err ≠ .allocationFailure) ∧
  (∀ (w : Nat) (pre rest : Bytes) (b : Byte) (s : State), s.op = none →
    (∀ m, s.params.rxBufMax = some m → 2 ^ w ≤ m) → s.params.lenW = some w → pre.length + 1 = 2 ^ w →
    (0x00 : Byte) ∉ pre → s.rx = pre ++ b :: rest → exec .receiveAndDecode s = .refused .lengthBeyondLenW)

/-- What `receive_and_decode` never returns (R205, derived in the spec): a zero command, a payload with a failure, the kind
of `wait_ack`; and what it consumes is a prefix of the RX stream. -/
def Obligations.ReceiveNeverReturns : Prop :=
  ∀ s t : State, exec .receiveAndDecode s = .next t → t.op = none →
    (∀ payload, t.result ≠ .packet 0x00 payload) ∧
    (t.ok = false → t.result = .nothing) ∧ t.err ≠ .malformedAck ∧
    (t.ok = true → ∃ command payload, t.result = .packet command payload) ∧
    ∃ read, s.rx = read ++ t.rx

/-- End to end (R206, derived in the spec): a frame sent with a non-zero command and received unchanged gives the packet
back unless `payload ++ [crc]` loses a zero, in particular for every payload of at most 253 bytes; when the lost zero
is the CRC byte alone, the last payload byte is lost silently; otherwise the decoded region is what remains. The model's
own: the reset values of the deframer's registers (log 7) and where the diagnostic is kept (log 20). -/
def Obligations.SentFrameIsReceived : Prop :=
  ∀ (command : Byte) (payload rest : Bytes) (s : State), s.op = none →
    roomFor s.params (frameOf .literal command payload).length = true →
    command ≠ 0x00 → s.rx = frameOf .literal command payload ++ rest →
    ((payload = [] ∨ losesZero (payload ++ [calcCrc payload]) = false ∨ payload.length ≤ 253) →
      exec .receiveAndDecode s =
        .next { s with
          rx := rest, dfr := DeframerRegs.reset
          ok := true, err := .none, diag := .none, result := .packet command payload }) ∧
    (payload ≠ [] → calcCrc payload = 0x00 → survivors (payload ++ [calcCrc payload]) = payload →
      exec .receiveAndDecode s =
        .next { s with
          rx := rest, dfr := DeframerRegs.reset
          ok := true, err := .none, diag := .none, result := .packet command payload.dropLast }) ∧
    (∀ decoded crc, payload ≠ [] → survivors (payload ++ [calcCrc payload]) = decoded ++ [crc] →
      exec .receiveAndDecode s =
        .next (if calcCrc decoded = crc then
          { s with
            rx := rest, dfr := DeframerRegs.reset
            ok := true, err := .none, diag := .none, result := .packet command decoded }
        else
          { s with
            rx := rest, dfr := DeframerRegs.reset
            ok := false, err := .crcMismatch, diag := .crcs (calcCrc decoded) crc, result := .nothing }))

/-- Receiving in pieces: a reading operation that waits, is given the rest by the RX source and runs on, ends as the same
operation on all the bytes at once (R53, R191, R209; the two views are the model's, log 9, and so is delivery by `arrive`,
log 16). -/
def Obligations.ReceivingInPieces : Prop :=
  ∀ (i : Instr) (first second : Bytes) (s w v : State),
    (i = .receiveAndDecode ∨ (∃ e, i = .waitAck e) ∨ ∃ seq, i = .readUntilSequence seq) →
    s.op = none → s.rxGone = false →
    exec i { s with rx := first } = .next w → arrive second w = .next v →
    ∃ k t, advanceN k v = .next t ∧ exec i { s with rx := first ++ second } = .next t

/-! ### ACK and resync -/

/-- R211: `wait_ack` is one full decode and two tests. A decode failure is passed on with its kind (the spec's decision
D17), then a payload, then another command is `MalformedAck`; a decode that waits leaves `wait_ack` waiting. The first
clause: the expected bare frame is a success. The model's own: the reset values of the deframer's registers (log 7) and
where the diagnostic is kept (log 20). -/
def Obligations.WaitAckResult : Prop :=
  (∀ (expected : Byte) (rest : Bytes) (s : State), s.op = none → roomFor s.params 2 = true → expected ≠ 0x00 →
    s.rx = expected :: 0x00 :: rest →
    exec (.waitAck expected) s =
      .next { s with
        rx := rest, dfr := DeframerRegs.reset
        ok := true, err := .none, diag := .none, result := .nothing }) ∧
  ∀ (expected : Byte) (s r : State), s.op = none → exec .receiveAndDecode s = .next r →
    (r.op ≠ none → exec (.waitAck expected) s = .next { r with op := some (.waitAck expected) }) ∧
    (r.op = none → r.ok = false → exec (.waitAck expected) s = .next r) ∧
    (∀ command payload, r.op = none → r.ok = true → r.result = .packet command payload →
      (payload ≠ [] →
        exec (.waitAck expected) s =
          .next { r with ok := false, err := .malformedAck, diag := .ackLength, result := .nothing }) ∧
      (payload = [] → command ≠ expected →
        exec (.waitAck expected) s =
          .next { r with ok := false, err := .malformedAck, diag := .ackCommand, result := .nothing }) ∧
      (payload = [] → command = expected →
        exec (.waitAck expected) s =
          .next { r with ok := true, err := .none, diag := .none, result := .nothing }))

/-- `read_until_sequence` ends at the earliest position where `seq` has been seen in full, returns every byte read with the
match, and leaves the rest (R215, the spec's decision D16); while it is not seen the operation waits, and a transport
that is gone ends it (R207); a full buffer ends it with `AllocationFailure`, the byte that does not fit consumed (R201,
D7); a buffer that outgrows a finite `LEN_W` is refused (log 14). The model's own, too: the reset values of the deframer's
registers (log 7), where the diagnostic is kept (log 20). -/
def Obligations.ReadUntilSequenceResult : Prop :=
  ∀ (seq pre rest : Bytes) (s : State), s.op = none → seq ≠ [] → fitsLenW s.params seq.length = true →
    (roomFor s.params pre.length = true → seq <:+ pre → (∀ q, q <+: pre → q ≠ pre → ¬ seq <:+ q) → s.rx = pre ++ rest →
      exec (.readUntilSequence seq) s =
        .next { s with
          rx := rest, dfr := DeframerRegs.reset
          ok := true, err := .none, diag := .none, result := .bytes pre }) ∧
    (roomFor s.params s.rx.length = true → (∀ q, q <+: s.rx → ¬ seq <:+ q) → s.rxGone = false →
      exec (.readUntilSequence seq) s =
        .next { s with
          op := some (.readUntilSequence seq), rx := []
          dfr := { DeframerRegs.reset with phase := .recv, buf := s.rx } }) ∧
    (roomFor s.params s.rx.length = true → (∀ q, q <+: s.rx → ¬ seq <:+ q) → s.rxGone = true →
      exec (.readUntilSequence seq) s =
        .next { s with
          rx := [], dfr := DeframerRegs.reset
          ok := false, err := .transportFailure, diag := .none, result := .nothing }) ∧
    (∀ b, s.params.rxBufMax = some pre.length → fitsLenW s.params pre.length = true →
      (∀ q, q <+: pre → ¬ seq <:+ q) → s.rx = pre ++ b :: rest →
      exec (.readUntilSequence seq) s =
        .next { s with
          rx := rest, dfr := DeframerRegs.reset
          ok := false, err := .allocationFailure, diag := .bufLen pre.length, result := .nothing }) ∧
    (∀ w b, (∀ m, s.params.rxBufMax = some m → 2 ^ w ≤ m) → s.params.lenW = some w → pre.length + 1 = 2 ^ w →
      (∀ q, q <+: pre → ¬ seq <:+ q) → s.rx = pre ++ b :: rest →
      exec (.readUntilSequence seq) s = .refused .lengthBeyondLenW)

/-- The reset sequence as a receiver with an empty buffer sees it (R214, derived in the spec): three failures, the command
`0x72`, two failures, and the rest of the stream. -/
def Obligations.ResetSequenceAtReceiver : Prop :=
  ∀ (rest : Bytes) (s : State), s.op = none → roomFor s.params 2 = true →
    s.rx = [0x00, 0x00, 0x00, 0x72, 0x00, 0x00, 0x00] ++ rest →
    ∃ t1 t2 t3 t4 t5 t6,
      exec .receiveAndDecode s = .next t1 ∧ t1.ok = false ∧
      exec .receiveAndDecode t1 = .next t2 ∧ t2.ok = false ∧
      exec .receiveAndDecode t2 = .next t3 ∧ t3.ok = false ∧
      exec .receiveAndDecode t3 = .next t4 ∧ t4.ok = true ∧ t4.result = .packet 0x72 [] ∧
      exec .receiveAndDecode t4 = .next t5 ∧ t5.ok = false ∧
      exec .receiveAndDecode t5 = .next t6 ∧ t6.ok = false ∧ t6.rx = rest ∧ t6.op = none

/-! ### Outcomes, failures, frames -/

/-- R234: the operations that cannot fail always end, and with `ok = 1`: in every idle block, with every operand that is not
refused (the refusals are BadOperandsAreRefused). -/
def Obligations.FiveOperationsCannotFail : Prop :=
  ∀ (i : Instr) (s : State),
    ((∃ p, i = .calcCrc p) ∨ (∃ input out, i = .stuff input out) ∨ (∃ c p, i = .encodeAndSend c p) ∨
      (∃ c, i = .sendAck c) ∨ i = .sendResetSequence) →
    s.op = none → operandRefusal s.params i = none →
    ∃ t, exec i s = .next t ∧ t.op = none ∧ t.ok = true ∧ t.err = .none

/-- R245: a failing operation writes nothing to the TX stream, run as a whole or at the step that fails. And it delivers no
result value (R243), is over (R244), and leaves `ok` and `err` in agreement. -/
def Obligations.FailureWritesNothing : Prop :=
  (∀ (i : Instr) (s t : State), i.isOp = true → exec i s = .next t → t.op = none → t.ok = false →
    t.tx = s.tx ∧ t.result = .nothing ∧ t.err ≠ .none) ∧
  (∀ s t : State, s.op ≠ none → step s = .next t → t.op = none → t.ok = false →
    t.tx = s.tx ∧ t.result = .nothing ∧ t.err ≠ .none)

/-- R20: no operation can observe a value left by an earlier one. Two idle states with the same parameters and the same
transport give an operation the same outcome, the same bytes written, the same bytes read, whatever their registers and
flags hold. -/
def Obligations.NoOperationSeesOldRegisters : Prop :=
  ∀ (i : Instr) (s t s' : State), i.isOp = true → s.op = none → t.op = none →
    s.params = t.params → s.rx = t.rx → s.rxGone = t.rxGone → exec i s = .next s' →
    ∃ t' written, exec i t = .next t' ∧ t'.op = s'.op ∧ t'.rx = s'.rx ∧
      s'.tx = s.tx ++ written ∧ t'.tx = t.tx ++ written ∧
      (s'.op = none → t'.ok = s'.ok ∧ t'.err = s'.err ∧ t'.result = s'.result) ∧
      (s'.op ≠ none → t'.dfr = s'.dfr)

/-- The flags and the result are written only when an operation ends, or by a reset of the block (R35, part of it the
spec's decision; R261). A step after which an operation is in progress leaves them alone; so does every step of an idle
block that neither runs an operation from its start nor resets it: a byte arriving, the transport lost, nothing at all. -/
def Obligations.FlagsWrittenOnlyAtTheEnd : Prop :=
  ∀ s t : State, step s = .next t →
    (t.op ≠ none ∨
      (s.op = none ∧ (∀ opsel o rest, s.inputs ≠ .word (.start opsel o) :: rest) ∧ ∀ rest, s.inputs ≠ .reset :: rest)) →
    t.ok = s.ok ∧ t.err = s.err ∧ t.result = s.result ∧ t.diag = s.diag

/-- Frame of `calc_crc`, `stuff`, `unstuff`: the streams, the parameters, the inputs, the framer, the deframer and the
units other than the operation's own are unchanged (R115, R130, R150). -/
def Obligations.CodecOperationsFrame : Prop :=
  ∀ (i : Instr) (s t : State), exec i s = .next t →
    ((∃ p, i = .calcCrc p) → t.enc = s.enc ∧ t.dec = s.dec) ∧
    ((∃ input out, i = .stuff input out) → t.crc = s.crc ∧ t.dec = s.dec) ∧
    ((∃ input out, i = .unstuff input out) → t.crc = s.crc ∧ t.enc = s.enc) ∧
    (((∃ p, i = .calcCrc p) ∨ (∃ input out, i = .stuff input out) ∨ (∃ input out, i = .unstuff input out)) →
      t.tx = s.tx ∧ t.rx = s.rx ∧ t.rxGone = s.rxGone ∧ t.params = s.params ∧ t.inputs = s.inputs ∧
      t.frm = s.frm ∧ t.dfr = s.dfr ∧ t.op = s.op)

/-- Frame of `encode_and_send`, `send_ack`, `send_reset_sequence`: TX grows by the bytes written, which depend on the
operands alone (and on the cap rule); RX and everything but the framer and the outcome is unchanged (R170). -/
def Obligations.SendingOperationsFrame : Prop :=
  ∀ (i : Instr) (s t : State),
    ((∃ c p, i = .encodeAndSend c p) ∨ (∃ c, i = .sendAck c) ∨ i = .sendResetSequence) →
    exec i s = .next t →
    (∀ c p, i = .encodeAndSend c p → t.tx = s.tx ++ frameOf s.params.capRule c p) ∧
    (∀ c, i = .sendAck c → t.tx = s.tx ++ [c, 0x00]) ∧
    (i = .sendResetSequence → t.tx = s.tx ++ Config.resetSeq) ∧
    t.rx = s.rx ∧ t.rxGone = s.rxGone ∧ t.params = s.params ∧ t.inputs = s.inputs ∧
    t.crc = s.crc ∧ t.enc = s.enc ∧ t.dec = s.dec ∧ t.dfr = s.dfr ∧ t.op = s.op

/-- Frame of the reading operations: nothing is written to TX (R190); of RX a prefix is consumed; everything but the
deframer and the outcome is unchanged. -/
def Obligations.ReadingOperationsFrame : Prop :=
  ∀ (i : Instr) (s t : State),
    (i = .receiveAndDecode ∨ (∃ e, i = .waitAck e) ∨ ∃ seq, i = .readUntilSequence seq) →
    exec i s = .next t →
    t.tx = s.tx ∧ (∃ read, s.rx = read ++ t.rx) ∧ t.rxGone = s.rxGone ∧ t.params = s.params ∧
    t.inputs = s.inputs ∧ t.crc = s.crc ∧ t.enc = s.enc ∧ t.dec = s.dec ∧ t.frm = s.frm ∧
    (t.op = none ∨ (t.op = some i ∧ t.rx = [] ∧ t.ok = s.ok ∧ t.err = s.err ∧ t.result = s.result))

/-- Frame of the wire elements: TX, the parameters, the inputs, the CRC and encoder units and the transport's state are
unchanged; what was unread in RX stays at its head; the framer changes only by a CRC byte; the standalone decoder only by
an element of a stuffed region; the deframer only while a reading operation runs; the outcome only when the operation
ends; no operation starts. -/
def Obligations.WireElementsFrame : Prop :=
  ∀ (i : Instr) (s t : State), i.isOp = false → exec i s = .next t →
    t.tx = s.tx ∧ t.params = s.params ∧ t.inputs = s.inputs ∧ t.crc = s.crc ∧ t.enc = s.enc ∧
    t.rxGone = s.rxGone ∧ s.rx <+: t.rx ∧ (t.op = s.op ∨ t.op = none) ∧
    ((∀ k, i ≠ .crcByte k) → t.frm = s.frm) ∧
    (((∃ c, i = .frameE c) ∨ (∃ c r, i = .frameP c r) ∨ (∃ c, i = .frameCommand c) ∨ i = .frameDelim ∨
      (∃ k, i = .crcByte k) ∨ i = .resetSequence) → t.dec = s.dec) ∧
    (s.op ≠ some .receiveAndDecode → (∀ e, s.op ≠ some (.waitAck e)) → (∀ q, s.op ≠ some (.readUntilSequence q)) →
      t.dfr = s.dfr) ∧
    (t.op = s.op → t.ok = s.ok ∧ t.err = s.err ∧ t.result = s.result ∧ t.diag = s.diag)

/-! ### Wire elements -/

/-- While no operation runs, a wire element of the line completes: its bytes join the RX stream and nothing else changes
(R53, R59, R81 to R94; "Byte arrival does not interrupt anything", R240; the elision of a CRC byte `0x00` is R89). The
bytes are written out in `onLine`. The RX source's delivery as the element's effect is the model's choice, log 16. -/
def Obligations.LineElementsArrive : Prop :=
  ∀ (i : Instr) (s : State), i.isOp = false → s.op = none → s.rxGone = false →
    exec i s = .next { s with rx := s.rx ++ onLine i }

/-- A pending `read_byte` takes the elements of the line byte by byte, every element and for every reader (R191, R215, R53;
delivery is log 16). The bytes of an element are those of `onLine`. `receive_and_decode` and `wait_ack`: bytes without
`0x00` are appended to `rx_buf`; the first `0x00` ends reception, and what follows it stays unread. `read_until_sequence`:
bytes are appended until the sequence is at the end of the buffer, which ends the operation; what follows stays unread. A
full buffer fails with `AllocationFailure` at the first byte (R201), one at the end of a finite `LEN_W` is refused (log
14). The model's own, too: the reset values of the deframer's registers (log 7), where the diagnostic is kept (log 20). -/
def Obligations.PendingReadTakesElements : Prop :=
  ∀ (i : Instr) (s : State), i.isOp = false → s.dfr.phase = .recv → s.rx = [] → s.rxGone = false →
    ((s.op = some .receiveAndDecode ∨ ∃ expected, s.op = some (.waitAck expected)) →
      (roomFor s.params (s.dfr.buf.length + (onLine i).length) = true → (0x00 : Byte) ∉ onLine i →
        exec i s = .next { s with dfr := { s.dfr with buf := s.dfr.buf ++ onLine i } }) ∧
      (∀ pre rest, onLine i = pre ++ 0x00 :: rest → (0x00 : Byte) ∉ pre →
        roomFor s.params (s.dfr.buf.length + pre.length + 1) = true →
        exec i s =
          .next { s with rx := rest, dfr := { s.dfr with buf := s.dfr.buf ++ pre ++ [0x00], phase := .split } })) ∧
    (∀ seq, s.op = some (.readUntilSequence seq) →
      (roomFor s.params (s.dfr.buf.length + (onLine i).length) = true →
        (∀ q, q <+: onLine i → q ≠ [] → ¬ seq <:+ s.dfr.buf ++ q) →
        exec i s = .next { s with dfr := { s.dfr with buf := s.dfr.buf ++ onLine i } }) ∧
      (∀ pre rest, onLine i = pre ++ rest → pre ≠ [] → seq <:+ s.dfr.buf ++ pre →
        (∀ q, q <+: pre → q ≠ [] → q ≠ pre → ¬ seq <:+ s.dfr.buf ++ q) →
        roomFor s.params (s.dfr.buf.length + pre.length) = true →
        exec i s =
          .next { s with
            op := none, rx := rest, dfr := DeframerRegs.reset
            ok := true, err := .none, diag := .none, result := .bytes (s.dfr.buf ++ pre) })) ∧
    ((s.op = some .receiveAndDecode ∨ (∃ expected, s.op = some (.waitAck expected)) ∨
        ∃ seq, s.op = some (.readUntilSequence seq)) →
      ∀ b rest, onLine i = b :: rest →
      (∀ m, s.params.rxBufMax = some m → m ≤ s.dfr.buf.length →
        exec i s =
          .next { s with
            op := none, rx := rest, dfr := DeframerRegs.reset
            ok := false, err := .allocationFailure, diag := .bufLen s.dfr.buf.length, result := .nothing }) ∧
      ((∀ m, s.params.rxBufMax = some m → s.dfr.buf.length < m) →
        fitsLenW s.params (s.dfr.buf.length + 1) = false → exec i s = .refused .lengthBeyondLenW))

/-- The elements of a stuffed region in the running decoder, the standalone one or the deframer's in UNSTUFF (R151 to R154,
R195, R196). Between blocks: a whole block, a code without data, a code that opens a block; a zero code, and a code or a
block that runs past the end of the input, fail; a data byte is out of place. In an open block: a data byte, and the last
one; a code or a block is out of place. The model's own: presenting elements to a running decoder, and the refusal of an
element out of its place, since R97 says only that the position identifies it (log 16); the byte-serial form (log 10), in
which the cursor of an open block has not moved (log 23); the reset values of the released unit (log 7) and the diagnostic
(log 20). -/
def Obligations.DecoderTakesElements : Prop :=
  ∀ (home : DecHome) (input data : Bytes) (code b : Byte) (s : State) (d : DecRegs),
    decoderRuns home input s → d = decoderRegs home s →
    (d.code = none →
      (data.length + 1 = code.toNat → d.r + code.toNat ≤ input.length →
        exec (.cobsBlock code data) s =
          .next (s.withDecoder home
            { d with
              r := d.r + code.toNat, got := 0
              out := d.out ++ data ++ (if code ≠ 0xFF ∧ d.r + code.toNat < input.length then [0x00] else []) })) ∧
      (d.r + 1 ≤ input.length →
        exec (.cobsCodeShort 0x01) s =
          .next (s.withDecoder home
            { d with
              r := d.r + 1, got := 0
              out := d.out ++ (if d.r + 1 < input.length then [0x00] else []) })) ∧
      (2 ≤ code.toNat → d.r + code.toNat ≤ input.length →
        exec (.cobsCodeShort code) s = .next (s.withDecoder home { d with code := some code, got := 0 })) ∧
      (d.r + 255 ≤ input.length →
        exec .cobsCodeFull s = .next (s.withDecoder home { d with code := some 0xFF, got := 0 })) ∧
      (∃ diag, exec .cobsCodeZero s = .next (decoderFailed home diag s)) ∧
      (input.length < d.r + code.toNat →
        ∃ diag, exec (.cobsCodeShort code) s = .next (decoderFailed home diag s) ∧
          exec (.cobsBlock code data) s = .next (decoderFailed home diag s)) ∧
      (input.length < d.r + 255 → ∃ diag, exec .cobsCodeFull s = .next (decoderFailed home diag s)) ∧
      exec (.cobsData b) s = .refused .elementOutOfPlace) ∧
    (∀ c, d.code = some c →
      (d.got + 2 < c.toNat →
        exec (.cobsData b) s = .next (s.withDecoder home { d with out := d.out ++ [b], got := d.got + 1 })) ∧
      (c.toNat = d.got + 2 →
        exec (.cobsData b) s =
          .next (s.withDecoder home
            { d with
              r := d.r + c.toNat, code := none, got := 0
              out := d.out ++ [b] ++ (if c ≠ 0xFF ∧ d.r + c.toNat < input.length then [0x00] else []) })) ∧
      exec (.cobsBlock code data) s = .refused .elementOutOfPlace ∧
      exec (.cobsCodeShort code) s = .refused .elementOutOfPlace ∧
      exec .cobsCodeFull s = .refused .elementOutOfPlace ∧
      exec .cobsCodeZero s = .refused .elementOutOfPlace)

/-- Byte-serial decoding makes of a block what `DEC_BLOCK` makes of it: the code, then each data byte (R159, a decision of
the spec; log 10). -/
def Obligations.BytewiseDecodingAgrees : Prop :=
  ∀ (input data : Bytes) (out : OutBuf) (code : Byte) (s t : State),
    s.op = some (.unstuff input out) → s.dec.phase = .run → s.dec.code = none →
    data.length + 1 = code.toNat → exec (.cobsBlock code data) s = .next t → t.op ≠ none →
    (data.foldl (fun (o : Out) b => o.andThen (exec (.cobsData b))) (exec (.cobsCodeShort code) s)) = .next t

/-- The CRC byte where it has a place: in CHECK of `receive_and_decode`, after the CRC pass, it decides the outcome (R198),
and before its end it is refused (log 16); in STUFF of `encode_and_send` it is the last byte given to the encoder (R172).
The model's own: the reset values of the deframer's registers (log 7) and where the diagnostic is kept (log 20). -/
def Obligations.CrcByteAtItsPlace : Prop :=
  (∀ (crc : Byte) (s : State), s.op = some .receiveAndDecode → s.dfr.phase = .check →
    s.dfr.crc.i < s.dfr.rxDec.dropLast.length → exec (.crcByte crc) s = .refused .elementOutOfPlace) ∧
  (∀ (crc : Byte) (s : State), s.op = some .receiveAndDecode → s.dfr.phase = .check →
    s.dfr.rxDec.dropLast.length ≤ s.dfr.crc.i →
    exec (.crcByte crc) s =
      .next (if s.dfr.crc.acc = crc then
        { s with
          op := none, dfr := DeframerRegs.reset
          ok := true, err := .none, diag := .none, result := .packet s.dfr.cmd s.dfr.rxDec.dropLast }
      else
        { s with
          op := none, dfr := DeframerRegs.reset
          ok := false, err := .crcMismatch, diag := .crcs s.dfr.crc.acc crc, result := .nothing })) ∧
  (∀ (crc command : Byte) (payload : Bytes) (s : State), s.op = some (.encodeAndSend command payload) →
    s.frm.phase = .stuff → s.frm.flush = [] → s.frm.enc.phase = .run → payload.length ≤ s.frm.i →
    exec (.crcByte crc) s =
      .next { s with frm :=
        { s.frm with
          enc := { (s.frm.enc.byte s.params.capRule crc).1 with phase := .final }
          flush := (s.frm.enc.byte s.params.capRule crc).2 } })

/-! ### The machine -/

/-- A step runs the decoded instruction: the word presented, decoded, is run by `exec` on the state without that input.
While a unit reads elements of its own, a wire element only joins the RX stream (R240, log 27). With no input, or the
input that says so, a running unit takes its own step, and the element it takes is run by `exec`; an idle block does
nothing (R262). A launch only starts (R36, log 9); the transport is lost (R53, log 3); the caller writes a byte of the
payload of a running `encode_and_send`, which changes nothing else and no other operation (R54, log 30); a reset is the
matter of BlockResetKeepsTransport. The inputs are the model's, log 2. -/
def Obligations.StepRunsTheDecodedInstruction : Prop :=
  (∀ (s : State) (w : InputWord) (rest : List Input) (i : Instr),
    s.inputs = .word w :: rest → decode w = .ok i → (i.isOp = true ∨ s.readsOwnElements = false) →
    step s = exec i { s with inputs := rest }) ∧
  (∀ (s : State) (pos : LinePos) (bytes : Bytes) (rest : List Input) (i : Instr),
    s.inputs = .word (.line pos bytes) :: rest → decode (.line pos bytes) = .ok i → s.readsOwnElements = true →
    (s.rxGone = true → step s = .next { s with inputs := rest }) ∧
    (s.rxGone = false → s.pendingRead = none → step s = .next { s with inputs := rest, rx := s.rx ++ onLine i })) ∧
  (∀ (s : State) (rest : List Input), s.inputs = .run :: rest ∨ (s.inputs = [] ∧ rest = []) →
    (∀ i, s.nextElement = some i → step s = exec i { s with inputs := rest }) ∧
    (s.nextElement = none → step s = tick { s with inputs := rest }) ∧
    (s.op = none → step s = .next { s with inputs := rest })) ∧
  (∀ (s : State) (opsel : BitVec 4) (o : Operands) (rest : List Input), s.inputs = .launch opsel o :: rest →
    step s = begin (decodeStart opsel o) { s with inputs := rest }) ∧
  (∀ (s : State) (rest : List Input), s.inputs = .gone :: rest →
    step s = .next { s with inputs := rest, rxGone := true }) ∧
  (∀ (s : State) (index : Nat) (b : Byte) (rest : List Input), s.inputs = .rewrite index b :: rest →
    (∀ command payload, s.op = some (.encodeAndSend command payload) →
      step s = .next { s with inputs := rest, op := some (.encodeAndSend command (payload.set index b)) }) ∧
    ((∀ command payload, s.op ≠ some (.encodeAndSend command payload)) →
      step s = .next { s with inputs := rest }))

/-- The two descriptions of every operation agree (R18, a decision of the spec; log 9): what an operation's meaning gives
at once, the step machine started on it reaches. -/
def Obligations.FunctionAndStepMachineAgree : Prop :=
  ∀ (i : Instr) (s t : State), i.isOp = true → exec i s = .next t →
    ∃ k b, begin i s = .next b ∧ advanceN k b = .next t

/-- The values after reset (R38, R261, decisions of the spec). Where R38 gives no value, or leaves it to the transport, the
value is the model's (log 5, log 6). -/
def Obligations.ResetValues : Prop :=
  State.reset.op = none ∧ State.reset.busy = false ∧ State.reset.ok = true ∧ State.reset.err = .none ∧
  State.reset.err.code = 0 ∧
  State.reset.crc.acc = 0x00 ∧ State.reset.frm.crc.acc = 0x00 ∧ State.reset.dfr.crc.acc = 0x00 ∧
  State.reset.enc.code = 1 ∧ State.reset.frm.enc.code = 1 ∧
  State.reset.dec.r = 0 ∧ State.reset.dfr.decoder.r = 0 ∧ State.reset.dec.code = none ∧ State.reset.dec.out = [] ∧
  State.reset.frm.i = 0 ∧ State.reset.dfr.buf = [] ∧ State.reset.dfr.rxDec = [] ∧
  State.reset.crc.phase = .idle ∧ State.reset.enc.phase = .idle ∧ State.reset.dec.phase = .idle ∧
  State.reset.frm.phase = .idle ∧ State.reset.dfr.phase = .idle

/-- A reset of the block, also in the middle of an operation: no outcome, reset values everywhere, the transport untouched
(R261, R263, R264, decisions of the spec). The model's own: the values of `frm_crc` and `rx_cmd`, which R38 leaves without
one (log 5), of the result (log 6) and of the diagnostic (log 20), and that the reset lands between two micro-steps (log
8). -/
def Obligations.BlockResetKeepsTransport : Prop :=
  ∀ (s : State) (rest : List Input), s.inputs = .reset :: rest →
    step s = .next { State.reset with
      params := s.params, inputs := rest, tx := s.tx, rx := s.rx, rxGone := s.rxGone }

/-- Every step keeps the invariant, in every state that meets it: idle units hold their reset values, the running unit is
in the middle of its operation (the accumulator of `calc_crc` and of CHECK is the CRC of the bytes taken, R117; the
encoder's block is legal, R131; its output and what is to come make the result; a receive buffer is a legal prefix or a
frame, R56), the flags agree (R35). And every step but the caller's rewriting of the payload keeps the framer's CRC that
of its payload (R172, R54, R276), in every state where it is. -/
def Obligations.StepKeepsInv : Prop :=
  (∀ s t : State, s.inv = true → step s = .next t → t.inv = true) ∧
  (∀ s t : State, s.payloadSteady = true → (∀ index b rest, s.inputs ≠ .rewrite index b :: rest) →
    step s = .next t → t.payloadSteady = true)

/-- The invariant holds after reset, and no framer CRC is out of step with its payload. -/
def Obligations.ResetMeetsInv : Prop := State.reset.inv = true ∧ State.reset.payloadSteady = true

/-- From a state that meets the invariant no step faults, and no unit meets an element out of its place. -/
def Obligations.NoFaultUnderInv : Prop :=
  ∀ s : State, s.inv = true → (∀ f, step s ≠ .fault f) ∧ step s ≠ .refused .elementOutOfPlace

/-- The TX stream only grows (R52), and no step changes the parameters (log 1). -/
def Obligations.TxOnlyGrows : Prop :=
  ∀ s t : State, step s = .next t → s.tx <+: t.tx ∧ t.params = s.params
end

