-- ==== Sys2Proof/Laws/State.lean ====
section
/-! SUPPORT. One lemma per field per update of the state, so that no proof unfolds a record update. -/

namespace Sys2Proof.Machine

/-! `setSuccess` (R35) -/

@[simp] theorem State.setSuccess_params (r : Result) (s : State) : (s.setSuccess r).params = s.params := rfl
@[simp] theorem State.setSuccess_inputs (r : Result) (s : State) : (s.setSuccess r).inputs = s.inputs := rfl
@[simp] theorem State.setSuccess_op (r : Result) (s : State) : (s.setSuccess r).op = s.op := rfl
@[simp] theorem State.setSuccess_crc (r : Result) (s : State) : (s.setSuccess r).crc = s.crc := rfl
@[simp] theorem State.setSuccess_enc (r : Result) (s : State) : (s.setSuccess r).enc = s.enc := rfl
@[simp] theorem State.setSuccess_dec (r : Result) (s : State) : (s.setSuccess r).dec = s.dec := rfl
@[simp] theorem State.setSuccess_frm (r : Result) (s : State) : (s.setSuccess r).frm = s.frm := rfl
@[simp] theorem State.setSuccess_dfr (r : Result) (s : State) : (s.setSuccess r).dfr = s.dfr := rfl
@[simp] theorem State.setSuccess_ok (r : Result) (s : State) : (s.setSuccess r).ok = true := rfl
@[simp] theorem State.setSuccess_err (r : Result) (s : State) : (s.setSuccess r).err = .none := rfl
@[simp] theorem State.setSuccess_result (r : Result) (s : State) : (s.setSuccess r).result = r := rfl
@[simp] theorem State.setSuccess_diag (r : Result) (s : State) : (s.setSuccess r).diag = .none := rfl
@[simp] theorem State.setSuccess_tx (r : Result) (s : State) : (s.setSuccess r).tx = s.tx := rfl
@[simp] theorem State.setSuccess_rx (r : Result) (s : State) : (s.setSuccess r).rx = s.rx := rfl
@[simp] theorem State.setSuccess_rxGone (r : Result) (s : State) : (s.setSuccess r).rxGone = s.rxGone := rfl

/-! `setFailure` (R35, R243) -/

@[simp] theorem State.setFailure_params (k : ErrKind) (d : Diag) (s : State) : (s.setFailure k d).params = s.params := rfl
@[simp] theorem State.setFailure_inputs (k : ErrKind) (d : Diag) (s : State) : (s.setFailure k d).inputs = s.inputs := rfl
@[simp] theorem State.setFailure_op (k : ErrKind) (d : Diag) (s : State) : (s.setFailure k d).op = s.op := rfl
@[simp] theorem State.setFailure_crc (k : ErrKind) (d : Diag) (s : State) : (s.setFailure k d).crc = s.crc := rfl
@[simp] theorem State.setFailure_enc (k : ErrKind) (d : Diag) (s : State) : (s.setFailure k d).enc = s.enc := rfl
@[simp] theorem State.setFailure_dec (k : ErrKind) (d : Diag) (s : State) : (s.setFailure k d).dec = s.dec := rfl
@[simp] theorem State.setFailure_frm (k : ErrKind) (d : Diag) (s : State) : (s.setFailure k d).frm = s.frm := rfl
@[simp] theorem State.setFailure_dfr (k : ErrKind) (d : Diag) (s : State) : (s.setFailure k d).dfr = s.dfr := rfl
@[simp] theorem State.setFailure_ok (k : ErrKind) (d : Diag) (s : State) : (s.setFailure k d).ok = false := rfl
@[simp] theorem State.setFailure_err (k : ErrKind) (d : Diag) (s : State) : (s.setFailure k d).err = k := rfl
@[simp] theorem State.setFailure_result (k : ErrKind) (d : Diag) (s : State) : (s.setFailure k d).result = .nothing := rfl
@[simp] theorem State.setFailure_diag (k : ErrKind) (d : Diag) (s : State) : (s.setFailure k d).diag = d := rfl
@[simp] theorem State.setFailure_tx (k : ErrKind) (d : Diag) (s : State) : (s.setFailure k d).tx = s.tx := rfl
@[simp] theorem State.setFailure_rx (k : ErrKind) (d : Diag) (s : State) : (s.setFailure k d).rx = s.rx := rfl
@[simp] theorem State.setFailure_rxGone (k : ErrKind) (d : Diag) (s : State) : (s.setFailure k d).rxGone = s.rxGone := rfl

/-! `writeByte` (R52) -/

@[simp] theorem State.writeByte_params (b : Byte) (s : State) : (s.writeByte b).params = s.params := rfl
@[simp] theorem State.writeByte_inputs (b : Byte) (s : State) : (s.writeByte b).inputs = s.inputs := rfl
@[simp] theorem State.writeByte_op (b : Byte) (s : State) : (s.writeByte b).op = s.op := rfl
@[simp] theorem State.writeByte_crc (b : Byte) (s : State) : (s.writeByte b).crc = s.crc := rfl
@[simp] theorem State.writeByte_enc (b : Byte) (s : State) : (s.writeByte b).enc = s.enc := rfl
@[simp] theorem State.writeByte_dec (b : Byte) (s : State) : (s.writeByte b).dec = s.dec := rfl
@[simp] theorem State.writeByte_frm (b : Byte) (s : State) : (s.writeByte b).frm = s.frm := rfl
@[simp] theorem State.writeByte_dfr (b : Byte) (s : State) : (s.writeByte b).dfr = s.dfr := rfl
@[simp] theorem State.writeByte_ok (b : Byte) (s : State) : (s.writeByte b).ok = s.ok := rfl
@[simp] theorem State.writeByte_err (b : Byte) (s : State) : (s.writeByte b).err = s.err := rfl
@[simp] theorem State.writeByte_result (b : Byte) (s : State) : (s.writeByte b).result = s.result := rfl
@[simp] theorem State.writeByte_diag (b : Byte) (s : State) : (s.writeByte b).diag = s.diag := rfl
@[simp] theorem State.writeByte_tx (b : Byte) (s : State) : (s.writeByte b).tx = s.tx ++ [b] := rfl
@[simp] theorem State.writeByte_rx (b : Byte) (s : State) : (s.writeByte b).rx = s.rx := rfl
@[simp] theorem State.writeByte_rxGone (b : Byte) (s : State) : (s.writeByte b).rxGone = s.rxGone := rfl

/-! `withRx` (R64) -/

@[simp] theorem State.withRx_params (r : Bytes) (s : State) : (s.withRx r).params = s.params := rfl
@[simp] theorem State.withRx_inputs (r : Bytes) (s : State) : (s.withRx r).inputs = s.inputs := rfl
@[simp] theorem State.withRx_op (r : Bytes) (s : State) : (s.withRx r).op = s.op := rfl
@[simp] theorem State.withRx_crc (r : Bytes) (s : State) : (s.withRx r).crc = s.crc := rfl
@[simp] theorem State.withRx_enc (r : Bytes) (s : State) : (s.withRx r).enc = s.enc := rfl
@[simp] theorem State.withRx_dec (r : Bytes) (s : State) : (s.withRx r).dec = s.dec := rfl
@[simp] theorem State.withRx_frm (r : Bytes) (s : State) : (s.withRx r).frm = s.frm := rfl
@[simp] theorem State.withRx_dfr (r : Bytes) (s : State) : (s.withRx r).dfr = s.dfr := rfl
@[simp] theorem State.withRx_ok (r : Bytes) (s : State) : (s.withRx r).ok = s.ok := rfl
@[simp] theorem State.withRx_err (r : Bytes) (s : State) : (s.withRx r).err = s.err := rfl
@[simp] theorem State.withRx_result (r : Bytes) (s : State) : (s.withRx r).result = s.result := rfl
@[simp] theorem State.withRx_diag (r : Bytes) (s : State) : (s.withRx r).diag = s.diag := rfl
@[simp] theorem State.withRx_tx (r : Bytes) (s : State) : (s.withRx r).tx = s.tx := rfl
@[simp] theorem State.withRx_rx (r : Bytes) (s : State) : (s.withRx r).rx = r := rfl
@[simp] theorem State.withRx_rxGone (r : Bytes) (s : State) : (s.withRx r).rxGone = s.rxGone := rfl

/-! `loseTransport` (R53) -/

@[simp] theorem State.loseTransport_params (s : State) : (s.loseTransport).params = s.params := rfl
@[simp] theorem State.loseTransport_inputs (s : State) : (s.loseTransport).inputs = s.inputs := rfl
@[simp] theorem State.loseTransport_op (s : State) : (s.loseTransport).op = s.op := rfl
@[simp] theorem State.loseTransport_crc (s : State) : (s.loseTransport).crc = s.crc := rfl
@[simp] theorem State.loseTransport_enc (s : State) : (s.loseTransport).enc = s.enc := rfl
@[simp] theorem State.loseTransport_dec (s : State) : (s.loseTransport).dec = s.dec := rfl
@[simp] theorem State.loseTransport_frm (s : State) : (s.loseTransport).frm = s.frm := rfl
@[simp] theorem State.loseTransport_dfr (s : State) : (s.loseTransport).dfr = s.dfr := rfl
@[simp] theorem State.loseTransport_ok (s : State) : (s.loseTransport).ok = s.ok := rfl
@[simp] theorem State.loseTransport_err (s : State) : (s.loseTransport).err = s.err := rfl
@[simp] theorem State.loseTransport_result (s : State) : (s.loseTransport).result = s.result := rfl
@[simp] theorem State.loseTransport_diag (s : State) : (s.loseTransport).diag = s.diag := rfl
@[simp] theorem State.loseTransport_tx (s : State) : (s.loseTransport).tx = s.tx := rfl
@[simp] theorem State.loseTransport_rx (s : State) : (s.loseTransport).rx = s.rx := rfl
@[simp] theorem State.loseTransport_rxGone (s : State) : (s.loseTransport).rxGone = true := rfl

/-! `release` (R20, R244): what every unit's release leaves and clears -/

@[simp] theorem State.release_params (u : UnitName) (s : State) : (s.release u).params = s.params := by cases u <;> rfl
@[simp] theorem State.release_inputs (u : UnitName) (s : State) : (s.release u).inputs = s.inputs := by cases u <;> rfl
@[simp] theorem State.release_op (u : UnitName) (s : State) : (s.release u).op = none := by cases u <;> rfl
@[simp] theorem State.release_ok (u : UnitName) (s : State) : (s.release u).ok = s.ok := by cases u <;> rfl
@[simp] theorem State.release_err (u : UnitName) (s : State) : (s.release u).err = s.err := by cases u <;> rfl
@[simp] theorem State.release_result (u : UnitName) (s : State) : (s.release u).result = s.result := by cases u <;> rfl
@[simp] theorem State.release_diag (u : UnitName) (s : State) : (s.release u).diag = s.diag := by cases u <;> rfl
@[simp] theorem State.release_tx (u : UnitName) (s : State) : (s.release u).tx = s.tx := by cases u <;> rfl
@[simp] theorem State.release_rx (u : UnitName) (s : State) : (s.release u).rx = s.rx := by cases u <;> rfl
@[simp] theorem State.release_rxGone (u : UnitName) (s : State) : (s.release u).rxGone = s.rxGone := by cases u <;> rfl

/-! `release`: the released unit takes its reset values, the others are untouched -/

@[simp] theorem State.release_crc_crc (s : State) : (s.release .crc).crc = CrcRegs.reset := rfl
@[simp] theorem State.release_crc_enc (s : State) : (s.release .crc).enc = s.enc := rfl
@[simp] theorem State.release_crc_dec (s : State) : (s.release .crc).dec = s.dec := rfl
@[simp] theorem State.release_crc_frm (s : State) : (s.release .crc).frm = s.frm := rfl
@[simp] theorem State.release_crc_dfr (s : State) : (s.release .crc).dfr = s.dfr := rfl
@[simp] theorem State.release_enc_crc (s : State) : (s.release .enc).crc = s.crc := rfl
@[simp] theorem State.release_enc_enc (s : State) : (s.release .enc).enc = EncRegs.reset := rfl
@[simp] theorem State.release_enc_dec (s : State) : (s.release .enc).dec = s.dec := rfl
@[simp] theorem State.release_enc_frm (s : State) : (s.release .enc).frm = s.frm := rfl
@[simp] theorem State.release_enc_dfr (s : State) : (s.release .enc).dfr = s.dfr := rfl
@[simp] theorem State.release_dec_crc (s : State) : (s.release .dec).crc = s.crc := rfl
@[simp] theorem State.release_dec_enc (s : State) : (s.release .dec).enc = s.enc := rfl
@[simp] theorem State.release_dec_dec (s : State) : (s.release .dec).dec = DecRegs.reset := rfl
@[simp] theorem State.release_dec_frm (s : State) : (s.release .dec).frm = s.frm := rfl
@[simp] theorem State.release_dec_dfr (s : State) : (s.release .dec).dfr = s.dfr := rfl
@[simp] theorem State.release_framer_crc (s : State) : (s.release .framer).crc = s.crc := rfl
@[simp] theorem State.release_framer_enc (s : State) : (s.release .framer).enc = s.enc := rfl
@[simp] theorem State.release_framer_dec (s : State) : (s.release .framer).dec = s.dec := rfl
@[simp] theorem State.release_framer_frm (s : State) : (s.release .framer).frm = FramerRegs.reset := rfl
@[simp] theorem State.release_framer_dfr (s : State) : (s.release .framer).dfr = s.dfr := rfl
@[simp] theorem State.release_deframer_crc (s : State) : (s.release .deframer).crc = s.crc := rfl
@[simp] theorem State.release_deframer_enc (s : State) : (s.release .deframer).enc = s.enc := rfl
@[simp] theorem State.release_deframer_dec (s : State) : (s.release .deframer).dec = s.dec := rfl
@[simp] theorem State.release_deframer_frm (s : State) : (s.release .deframer).frm = s.frm := rfl
@[simp] theorem State.release_deframer_dfr (s : State) : (s.release .deframer).dfr = DeframerRegs.reset := rfl

/-! `endOk` (R14) -/

@[simp] theorem State.endOk_params (u : UnitName) (r : Result) (s : State) : (s.endOk u r).params = s.params := by cases u <;> rfl
@[simp] theorem State.endOk_inputs (u : UnitName) (r : Result) (s : State) : (s.endOk u r).inputs = s.inputs := by cases u <;> rfl
@[simp] theorem State.endOk_op (u : UnitName) (r : Result) (s : State) : (s.endOk u r).op = none := by cases u <;> rfl
@[simp] theorem State.endOk_crc (u : UnitName) (r : Result) (s : State) : (s.endOk u r).crc = (s.release u).crc := by cases u <;> rfl
@[simp] theorem State.endOk_enc (u : UnitName) (r : Result) (s : State) : (s.endOk u r).enc = (s.release u).enc := by cases u <;> rfl
@[simp] theorem State.endOk_dec (u : UnitName) (r : Result) (s : State) : (s.endOk u r).dec = (s.release u).dec := by cases u <;> rfl
@[simp] theorem State.endOk_frm (u : UnitName) (r : Result) (s : State) : (s.endOk u r).frm = (s.release u).frm := by cases u <;> rfl
@[simp] theorem State.endOk_dfr (u : UnitName) (r : Result) (s : State) : (s.endOk u r).dfr = (s.release u).dfr := by cases u <;> rfl
@[simp] theorem State.endOk_ok (u : UnitName) (r : Result) (s : State) : (s.endOk u r).ok = true := by cases u <;> rfl
@[simp] theorem State.endOk_err (u : UnitName) (r : Result) (s : State) : (s.endOk u r).err = .none := by cases u <;> rfl
@[simp] theorem State.endOk_result (u : UnitName) (r : Result) (s : State) : (s.endOk u r).result = r := by cases u <;> rfl
@[simp] theorem State.endOk_diag (u : UnitName) (r : Result) (s : State) : (s.endOk u r).diag = .none := by cases u <;> rfl
@[simp] theorem State.endOk_tx (u : UnitName) (r : Result) (s : State) : (s.endOk u r).tx = s.tx := by cases u <;> rfl
@[simp] theorem State.endOk_rx (u : UnitName) (r : Result) (s : State) : (s.endOk u r).rx = s.rx := by cases u <;> rfl
@[simp] theorem State.endOk_rxGone (u : UnitName) (r : Result) (s : State) : (s.endOk u r).rxGone = s.rxGone := by cases u <;> rfl

/-! `raiseFailure` (R243 to R245) -/

@[simp] theorem State.raiseFailure_params (u : UnitName) (k : ErrKind) (d : Diag) (s : State) : (s.raiseFailure u k d).params = s.params := by cases u <;> rfl
@[simp] theorem State.raiseFailure_inputs (u : UnitName) (k : ErrKind) (d : Diag) (s : State) : (s.raiseFailure u k d).inputs = s.inputs := by cases u <;> rfl
@[simp] theorem State.raiseFailure_op (u : UnitName) (k : ErrKind) (d : Diag) (s : State) : (s.raiseFailure u k d).op = none := by cases u <;> rfl
@[simp] theorem State.raiseFailure_crc (u : UnitName) (k : ErrKind) (d : Diag) (s : State) : (s.raiseFailure u k d).crc = (s.release u).crc := by cases u <;> rfl
@[simp] theorem State.raiseFailure_enc (u : UnitName) (k : ErrKind) (d : Diag) (s : State) : (s.raiseFailure u k d).enc = (s.release u).enc := by cases u <;> rfl
@[simp] theorem State.raiseFailure_dec (u : UnitName) (k : ErrKind) (d : Diag) (s : State) : (s.raiseFailure u k d).dec = (s.release u).dec := by cases u <;> rfl
@[simp] theorem State.raiseFailure_frm (u : UnitName) (k : ErrKind) (d : Diag) (s : State) : (s.raiseFailure u k d).frm = (s.release u).frm := by cases u <;> rfl
@[simp] theorem State.raiseFailure_dfr (u : UnitName) (k : ErrKind) (d : Diag) (s : State) : (s.raiseFailure u k d).dfr = (s.release u).dfr := by cases u <;> rfl
@[simp] theorem State.raiseFailure_ok (u : UnitName) (k : ErrKind) (d : Diag) (s : State) : (s.raiseFailure u k d).ok = false := by cases u <;> rfl
@[simp] theorem State.raiseFailure_err (u : UnitName) (k : ErrKind) (d : Diag) (s : State) : (s.raiseFailure u k d).err = k := by cases u <;> rfl
@[simp] theorem State.raiseFailure_result (u : UnitName) (k : ErrKind) (d : Diag) (s : State) : (s.raiseFailure u k d).result = .nothing := by cases u <;> rfl
@[simp] theorem State.raiseFailure_diag (u : UnitName) (k : ErrKind) (d : Diag) (s : State) : (s.raiseFailure u k d).diag = d := by cases u <;> rfl
@[simp] theorem State.raiseFailure_tx (u : UnitName) (k : ErrKind) (d : Diag) (s : State) : (s.raiseFailure u k d).tx = s.tx := by cases u <;> rfl
@[simp] theorem State.raiseFailure_rx (u : UnitName) (k : ErrKind) (d : Diag) (s : State) : (s.raiseFailure u k d).rx = s.rx := by cases u <;> rfl
@[simp] theorem State.raiseFailure_rxGone (u : UnitName) (k : ErrKind) (d : Diag) (s : State) : (s.raiseFailure u k d).rxGone = s.rxGone := by cases u <;> rfl

/-! `blockReset` (R261 to R264) -/

@[simp] theorem State.blockReset_params (s : State) : (s.blockReset).params = s.params := rfl
@[simp] theorem State.blockReset_inputs (s : State) : (s.blockReset).inputs = s.inputs := rfl
@[simp] theorem State.blockReset_op (s : State) : (s.blockReset).op = none := rfl
@[simp] theorem State.blockReset_crc (s : State) : (s.blockReset).crc = CrcRegs.reset := rfl
@[simp] theorem State.blockReset_enc (s : State) : (s.blockReset).enc = EncRegs.reset := rfl
@[simp] theorem State.blockReset_dec (s : State) : (s.blockReset).dec = DecRegs.reset := rfl
@[simp] theorem State.blockReset_frm (s : State) : (s.blockReset).frm = FramerRegs.reset := rfl
@[simp] theorem State.blockReset_dfr (s : State) : (s.blockReset).dfr = DeframerRegs.reset := rfl
@[simp] theorem State.blockReset_ok (s : State) : (s.blockReset).ok = true := rfl
@[simp] theorem State.blockReset_err (s : State) : (s.blockReset).err = .none := rfl
@[simp] theorem State.blockReset_result (s : State) : (s.blockReset).result = .nothing := rfl
@[simp] theorem State.blockReset_diag (s : State) : (s.blockReset).diag = .none := rfl
@[simp] theorem State.blockReset_tx (s : State) : (s.blockReset).tx = s.tx := rfl
@[simp] theorem State.blockReset_rx (s : State) : (s.blockReset).rx = s.rx := rfl
@[simp] theorem State.blockReset_rxGone (s : State) : (s.blockReset).rxGone = s.rxGone := rfl

/-! `waiting` (R192) -/

@[simp] theorem State.waiting_params (rd : Reader) (b : Bytes) (s : State) : (s.waiting rd b).params = s.params := rfl
@[simp] theorem State.waiting_inputs (rd : Reader) (b : Bytes) (s : State) : (s.waiting rd b).inputs = s.inputs := rfl
@[simp] theorem State.waiting_op (rd : Reader) (b : Bytes) (s : State) : (s.waiting rd b).op = some rd.instr := rfl
@[simp] theorem State.waiting_crc (rd : Reader) (b : Bytes) (s : State) : (s.waiting rd b).crc = s.crc := rfl
@[simp] theorem State.waiting_enc (rd : Reader) (b : Bytes) (s : State) : (s.waiting rd b).enc = s.enc := rfl
@[simp] theorem State.waiting_dec (rd : Reader) (b : Bytes) (s : State) : (s.waiting rd b).dec = s.dec := rfl
@[simp] theorem State.waiting_frm (rd : Reader) (b : Bytes) (s : State) : (s.waiting rd b).frm = s.frm := rfl
@[simp] theorem State.waiting_dfr (rd : Reader) (b : Bytes) (s : State) : (s.waiting rd b).dfr = { DeframerRegs.start with buf := b } := rfl
@[simp] theorem State.waiting_ok (rd : Reader) (b : Bytes) (s : State) : (s.waiting rd b).ok = s.ok := rfl
@[simp] theorem State.waiting_err (rd : Reader) (b : Bytes) (s : State) : (s.waiting rd b).err = s.err := rfl
@[simp] theorem State.waiting_result (rd : Reader) (b : Bytes) (s : State) : (s.waiting rd b).result = s.result := rfl
@[simp] theorem State.waiting_diag (rd : Reader) (b : Bytes) (s : State) : (s.waiting rd b).diag = s.diag := rfl
@[simp] theorem State.waiting_tx (rd : Reader) (b : Bytes) (s : State) : (s.waiting rd b).tx = s.tx := rfl
@[simp] theorem State.waiting_rx (rd : Reader) (b : Bytes) (s : State) : (s.waiting rd b).rx = s.rx := rfl
@[simp] theorem State.waiting_rxGone (rd : Reader) (b : Bytes) (s : State) : (s.waiting rd b).rxGone = s.rxGone := rfl

/-! `withDecoder` (R151) -/

@[simp] theorem State.withDecoder_params (h : DecHome) (d : DecRegs) (s : State) : (s.withDecoder h d).params = s.params := by cases h <;> rfl
@[simp] theorem State.withDecoder_inputs (h : DecHome) (d : DecRegs) (s : State) : (s.withDecoder h d).inputs = s.inputs := by cases h <;> rfl
@[simp] theorem State.withDecoder_op (h : DecHome) (d : DecRegs) (s : State) : (s.withDecoder h d).op = s.op := by cases h <;> rfl
@[simp] theorem State.withDecoder_crc (h : DecHome) (d : DecRegs) (s : State) : (s.withDecoder h d).crc = s.crc := by cases h <;> rfl
@[simp] theorem State.withDecoder_enc (h : DecHome) (d : DecRegs) (s : State) : (s.withDecoder h d).enc = s.enc := by cases h <;> rfl
@[simp] theorem State.withDecoder_frm (h : DecHome) (d : DecRegs) (s : State) : (s.withDecoder h d).frm = s.frm := by cases h <;> rfl
@[simp] theorem State.withDecoder_ok (h : DecHome) (d : DecRegs) (s : State) : (s.withDecoder h d).ok = s.ok := by cases h <;> rfl
@[simp] theorem State.withDecoder_err (h : DecHome) (d : DecRegs) (s : State) : (s.withDecoder h d).err = s.err := by cases h <;> rfl
@[simp] theorem State.withDecoder_result (h : DecHome) (d : DecRegs) (s : State) : (s.withDecoder h d).result = s.result := by cases h <;> rfl
@[simp] theorem State.withDecoder_diag (h : DecHome) (d : DecRegs) (s : State) : (s.withDecoder h d).diag = s.diag := by cases h <;> rfl
@[simp] theorem State.withDecoder_tx (h : DecHome) (d : DecRegs) (s : State) : (s.withDecoder h d).tx = s.tx := by cases h <;> rfl
@[simp] theorem State.withDecoder_rx (h : DecHome) (d : DecRegs) (s : State) : (s.withDecoder h d).rx = s.rx := by cases h <;> rfl
@[simp] theorem State.withDecoder_rxGone (h : DecHome) (d : DecRegs) (s : State) : (s.withDecoder h d).rxGone = s.rxGone := by cases h <;> rfl

@[simp] theorem State.withDecoder_standalone (d : DecRegs) (s : State) :
    s.withDecoder .standalone d = { s with dec := d } := rfl

@[simp] theorem State.withDecoder_deframer (d : DecRegs) (s : State) :
    s.withDecoder .deframer d = { s with dfr := { s.dfr with decoder := d } } := rfl

/-! `begun` (R36): only the operation in progress and its unit change -/

@[simp] theorem State.begun_params (i : Instr) (s : State) : (s.begun i).params = s.params := by
  cases i <;> rfl
@[simp] theorem State.begun_inputs (i : Instr) (s : State) : (s.begun i).inputs = s.inputs := by
  cases i <;> rfl
@[simp] theorem State.begun_ok (i : Instr) (s : State) : (s.begun i).ok = s.ok := by
  cases i <;> rfl
@[simp] theorem State.begun_err (i : Instr) (s : State) : (s.begun i).err = s.err := by
  cases i <;> rfl
@[simp] theorem State.begun_result (i : Instr) (s : State) : (s.begun i).result = s.result := by
  cases i <;> rfl
@[simp] theorem State.begun_diag (i : Instr) (s : State) : (s.begun i).diag = s.diag := by
  cases i <;> rfl
@[simp] theorem State.begun_tx (i : Instr) (s : State) : (s.begun i).tx = s.tx := by
  cases i <;> rfl
@[simp] theorem State.begun_rx (i : Instr) (s : State) : (s.begun i).rx = s.rx := by
  cases i <;> rfl
@[simp] theorem State.begun_rxGone (i : Instr) (s : State) : (s.begun i).rxGone = s.rxGone := by
  cases i <;> rfl

/-! `rewritePayload` (R54): only the operand of the operation in progress changes -/

@[simp] theorem State.rewritePayload_params (k : Nat) (b : Byte) (s : State) : (s.rewritePayload k b).params = s.params := rfl
@[simp] theorem State.rewritePayload_inputs (k : Nat) (b : Byte) (s : State) : (s.rewritePayload k b).inputs = s.inputs := rfl
@[simp] theorem State.rewritePayload_crc (k : Nat) (b : Byte) (s : State) : (s.rewritePayload k b).crc = s.crc := rfl
@[simp] theorem State.rewritePayload_enc (k : Nat) (b : Byte) (s : State) : (s.rewritePayload k b).enc = s.enc := rfl
@[simp] theorem State.rewritePayload_dec (k : Nat) (b : Byte) (s : State) : (s.rewritePayload k b).dec = s.dec := rfl
@[simp] theorem State.rewritePayload_frm (k : Nat) (b : Byte) (s : State) : (s.rewritePayload k b).frm = s.frm := rfl
@[simp] theorem State.rewritePayload_dfr (k : Nat) (b : Byte) (s : State) : (s.rewritePayload k b).dfr = s.dfr := rfl
@[simp] theorem State.rewritePayload_ok (k : Nat) (b : Byte) (s : State) : (s.rewritePayload k b).ok = s.ok := rfl
@[simp] theorem State.rewritePayload_err (k : Nat) (b : Byte) (s : State) : (s.rewritePayload k b).err = s.err := rfl
@[simp] theorem State.rewritePayload_result (k : Nat) (b : Byte) (s : State) : (s.rewritePayload k b).result = s.result := rfl
@[simp] theorem State.rewritePayload_diag (k : Nat) (b : Byte) (s : State) : (s.rewritePayload k b).diag = s.diag := rfl
@[simp] theorem State.rewritePayload_tx (k : Nat) (b : Byte) (s : State) : (s.rewritePayload k b).tx = s.tx := rfl
@[simp] theorem State.rewritePayload_rx (k : Nat) (b : Byte) (s : State) : (s.rewritePayload k b).rx = s.rx := rfl
@[simp] theorem State.rewritePayload_rxGone (k : Nat) (b : Byte) (s : State) : (s.rewritePayload k b).rxGone = s.rxGone := rfl
@[simp] theorem State.rewritePayload_op (k : Nat) (b : Byte) (s : State) :
    (s.rewritePayload k b).op = s.op.map (rewriteOperand k b) := rfl

end Sys2Proof.Machine
end

