-- ==== Sys2Proof/Laws/Ops.lean ====
section
/-! SUPPORT. For each shared operation, what it can do, said once; the proofs about the machine cite these. -/

namespace Sys2Proof.Machine

/-! ### Outcomes -/

@[simp] theorem Out.andThen_next (s : State) (k : State → Out) : Out.andThen (.next s) k = k s := rfl

@[simp] theorem Out.andThen_fault (f : Fault) (k : State → Out) : Out.andThen (.fault f) k = .fault f := rfl

@[simp] theorem Out.andThen_refused (r : Refusal) (k : State → Out) : Out.andThen (.refused r) k = .refused r := rfl

/-- A sequence of two steps ends in a next state only through one. -/
theorem Out.andThen_eq_next {o : Out} {k : State → Out} {t : State} :
    o.andThen k = .next t ↔ ∃ s, o = .next s ∧ k s = .next t := by
  cases o <;> simp [Out.andThen]

/-! ### The transport primitives -/

/-- `write_byte` for each byte appends them all, and changes nothing else (R52, R59). -/
theorem State.writeBytes_eq (bs : Bytes) (s : State) : s.writeBytes bs = { s with tx := s.tx ++ bs } := by
  induction bs generalizing s with
  | nil => simp [State.writeBytes]
  | cons b bs ih =>
    have h : s.writeBytes (b :: bs) = (s.writeByte b).writeBytes bs := rfl
    simp [h, ih, State.writeByte]

/-- The three answers of the RX source (R53). -/
theorem State.readByte_cases (s : State) :
    (∃ b rest, s.rx = b :: rest ∧ s.readByte = .byte b rest) ∨
    (s.rx = [] ∧ s.rxGone = false ∧ s.readByte = .nothingYet) ∨
    (s.rx = [] ∧ s.rxGone = true ∧ s.readByte = .fail) := by
  unfold State.readByte
  cases h : s.rx with
  | cons b rest => exact .inl ⟨b, rest, rfl, rfl⟩
  | nil => cases hg : s.rxGone <;> simp

/-! ### Starting -/

/-- An operation answers a next state exactly when its start is not refused and what it does answers it. -/
theorem unlessRefused_eq_next {i : Instr} {s t : State} {run : Out} :
    unlessRefused i s run = .next t ↔ startRefusal i s = none ∧ run = .next t := by
  unfold unlessRefused
  cases startRefusal i s <;> simp

/-- A start that is not refused is that of an idle block with operands that are not refused (R67). -/
theorem startRefusal_eq_none {i : Instr} {s : State} :
    startRefusal i s = none ↔ s.op = none ∧ operandRefusal s.params i = none := by
  unfold startRefusal State.busy
  cases s.op <;> simp

/-- A start that is not refused does what it does. -/
theorem unlessRefused_of_idle {i : Instr} {s : State} {run : Out} (hs : s.op = none)
    (ho : operandRefusal s.params i = none) : unlessRefused i s run = run := by
  simp [unlessRefused, startRefusal_eq_none.mpr ⟨hs, ho⟩]

/-- A start while an operation runs does nothing (R67). -/
theorem unlessRefused_of_busy {i : Instr} {s : State} {run : Out} (hs : s.op ≠ none) :
    unlessRefused i s run = .refused .startWhileBusy := by
  have h : s.op.isSome = true := Option.isSome_iff_ne_none.mpr hs
  simp [unlessRefused, startRefusal, State.busy, h]

/-! ### The payload array -/

/-- A change of the payload array leaves the operation what it is, but for a byte of the payload of `encode_and_send`
(R54). -/
theorem rewriteOperand_cases (k : Nat) (b : Byte) (i : Instr) :
    rewriteOperand k b i = i ∨
    ∃ command payload, i = .encodeAndSend command payload ∧
      rewriteOperand k b i = .encodeAndSend command (payload.set k b) := by
  cases i <;> simp [rewriteOperand]

/-- A change of the payload array keeps what the units do: the activity is the same, but for the bytes of a payload whose
length is the same (R54). -/
theorem activityOf_rewriteOperand (k : Nat) (b : Byte) (i : Instr) :
    activityOf (rewriteOperand k b i) = activityOf i ∨
    ∃ command payload, activityOf i = some (.send command payload) ∧
      activityOf (rewriteOperand k b i) = some (.send command (payload.set k b)) := by
  rcases rewriteOperand_cases k b i with h | ⟨c, p, rfl, h⟩
  · exact .inl (by rw [h])
  · exact .inr ⟨c, p, rfl, by rw [h]; rfl⟩

/-! ### Reception -/

/-- What one received byte does (R191, R201, R215). -/
theorem receiveByte_cases (p : Config.Params) (rd : Reader) (buf : Bytes) (b : Byte) :
    (bufFull p buf = true ∧ receiveByte p rd buf b = .overflow) ∨
    (bufFull p buf = false ∧ fitsLenW p (buf.length + 1) = false ∧ receiveByte p rd buf b = .beyondLenW) ∨
    (bufFull p buf = false ∧ fitsLenW p (buf.length + 1) = true ∧ rd.ends (buf ++ [b]) = true ∧
      receiveByte p rd buf b = .complete (buf ++ [b])) ∨
    (bufFull p buf = false ∧ fitsLenW p (buf.length + 1) = true ∧ rd.ends (buf ++ [b]) = false ∧
      receiveByte p rd buf b = .more (buf ++ [b])) := by
  unfold receiveByte
  cases bufFull p buf <;> cases fitsLenW p (buf.length + 1) <;> cases rd.ends (buf ++ [b]) <;> simp

/-- A byte that reaches a reading operation: failure, stop, end, or one byte more in the buffer (R191, R201, R215). -/
theorem takeReceived_eq_next {rd : Reader} {b : Byte} {s t : State} (h : takeReceived rd b s = .next t) :
    t = s.raiseFailure .deframer .allocationFailure (.bufLen s.dfr.buf.length) ∨
    (rd.ends (s.dfr.buf ++ [b]) = false ∧ t = { s with dfr := { s.dfr with buf := s.dfr.buf ++ [b] } }) ∨
    (rd.ends (s.dfr.buf ++ [b]) = true ∧ (∃ seq, rd = .sequence seq) ∧
      t = s.endOk .deframer (.bytes (s.dfr.buf ++ [b]))) ∨
    (rd.ends (s.dfr.buf ++ [b]) = true ∧ (∃ reader, rd = .frame reader) ∧
      t = { s with dfr := { s.dfr with buf := s.dfr.buf ++ [b], phase := .split } }) := by
  unfold takeReceived at h
  rcases receiveByte_cases s.params rd s.dfr.buf b with
    ⟨-, hr⟩ | ⟨-, -, hr⟩ | ⟨-, -, he, hr⟩ | ⟨-, -, he, hr⟩ <;> simp only [hr] at h
  · exact .inl (by simpa using h.symm)
  · exact absurd h (by simp)
  · cases rd with
    | frame reader => exact .inr (.inr (.inr ⟨he, ⟨reader, rfl⟩, by simpa using h.symm⟩))
    | sequence seq => exact .inr (.inr (.inl ⟨he, ⟨seq, rfl⟩, by simpa using h.symm⟩))
  · exact .inr (.inl ⟨he, by simpa using h.symm⟩)

/-- Whatever the scan consumes is a prefix of what had arrived (R203, R212). -/
theorem scan_consumes (p : Config.Params) (rd : Reader) (rx buf : Bytes) :
    (∀ buf' rest, scan p rd buf rx = .complete buf' rest → ∃ read, rx = read ++ rest ∧ buf' = buf ++ read) ∧
    (∀ len rest, scan p rd buf rx = .overflow len rest → ∃ read b, rx = read ++ b :: rest ∧ len = buf.length + read.length) ∧
    (∀ buf', scan p rd buf rx = .dry buf' → buf' = buf ++ rx) := by
  induction rx generalizing buf with
  | nil => simp [scan]
  | cons b rx ih =>
    rcases receiveByte_cases p rd buf b with
      ⟨-, hr⟩ | ⟨-, -, hr⟩ | ⟨-, -, -, hr⟩ | ⟨-, -, -, hr⟩ <;> simp only [scan, hr]
    · refine ⟨by simp, ?_, by simp⟩
      intro len rest h
      simp only [Scan.overflow.injEq] at h
      exact ⟨[], b, by simp [h.2], by simp [h.1]⟩
    · simp
    · refine ⟨?_, by simp, by simp⟩
      intro buf' rest h
      simp only [Scan.complete.injEq] at h
      exact ⟨[b], by simp [h.2], h.1.symm⟩
    · obtain ⟨h1, h2, h3⟩ := ih (buf ++ [b])
      refine ⟨?_, ?_, ?_⟩
      · intro buf' rest h
        obtain ⟨read, hx, hb⟩ := h1 buf' rest h
        exact ⟨b :: read, by simp [hx], by simp [hb]⟩
      · intro len rest h
        obtain ⟨read, c, hx, hb⟩ := h2 len rest h
        refine ⟨b :: read, c, by simp [hx], ?_⟩
        simp only [List.length_append, List.length_cons, List.length_nil] at hb ⊢
        omega
      · intro buf' h
        simpa using h3 buf' h

/-- How a reading operation ends or waits (R192, R201, R207, R208). -/
theorem runReader_eq_next {rd : Reader} {s t : State} (h : runReader rd s = .next t) :
    (∃ buf rest, scan s.params rd [] s.rx = .complete buf rest ∧ t = concludeBuffer rd buf (s.withRx rest)) ∨
    (∃ len rest, scan s.params rd [] s.rx = .overflow len rest ∧
      t = (s.withRx rest).raiseFailure .deframer .allocationFailure (.bufLen len)) ∨
    (∃ buf, scan s.params rd [] s.rx = .dry buf ∧ s.rxGone = true ∧
      t = (s.withRx []).raiseFailure .deframer .transportFailure .none) ∨
    (∃ buf, scan s.params rd [] s.rx = .dry buf ∧ s.rxGone = false ∧ t = (s.withRx []).waiting rd buf) := by
  unfold runReader at h
  split at h
  · rename_i buf rest hs
    exact .inl ⟨buf, rest, hs, by simpa using h.symm⟩
  · rename_i len rest hs
    exact .inr (.inl ⟨len, rest, hs, by simpa using h.symm⟩)
  · exact absurd h (by simp)
  · rename_i buf hs
    split at h
    · rename_i hg
      exact .inr (.inr (.inl ⟨buf, hs, hg, by simpa using h.symm⟩))
    · rename_i hg
      exact .inr (.inr (.inr ⟨buf, hs, by simpa using hg, by simpa using h.symm⟩))

/-! ### The line -/

/-- A byte that arrives: dropped after the transport is gone, taken by a pending read, or left unread (R53). -/
theorem arriveByte_cases (b : Byte) (s : State) :
    (s.rxGone = true ∧ arriveByte b s = .next s) ∨
    (s.rxGone = false ∧ (∃ rd, s.pendingRead = some rd ∧ arriveByte b s = takeReceived rd b s)) ∨
    (s.rxGone = false ∧ s.pendingRead = none ∧ arriveByte b s = .next (s.withRx (s.rx ++ [b]))) := by
  unfold arriveByte
  cases hg : s.rxGone <;> cases hp : s.pendingRead <;> simp

/-- An idle block has no pending read (R53). -/
theorem State.pendingRead_of_idle {s : State} (h : s.op = none) : s.pendingRead = none := by
  simp [State.pendingRead, State.activity, h]

/-- An idle block has no running decoder (R34). -/
theorem State.activeDecoder_of_idle {s : State} (h : s.op = none) : s.activeDecoder = none := by
  simp [State.activeDecoder, State.activity, h]

/-- What arrives at an idle block joins the RX stream (R240). -/
theorem arrive_of_idle (bs : Bytes) {s : State} (ho : s.op = none) (hg : s.rxGone = false) :
    arrive bs s = .next (s.withRx (s.rx ++ bs)) := by
  induction bs generalizing s with
  | nil => simp [arrive, State.withRx]
  | cons b bs ih =>
    have hp := State.pendingRead_of_idle ho
    have hb : arriveByte b s = .next (s.withRx (s.rx ++ [b])) := by simp [arriveByte, hg, hp]
    rw [arrive, hb, Out.andThen_next, ih (by simpa using ho) (by simpa using hg)]
    simp [State.withRx]

/-! ### The decoder -/

/-- A whole block: out of place, bad, or taken (R151 to R154). -/
theorem DecRegs.block_cases (n : Nat) (code : Byte) (data : Bytes) (d : DecRegs) :
    (d.code ≠ none ∧ d.block n code data = .outOfPlace) ∨
    (d.code = none ∧ (badBlock n d.r code = true ∨ data.length + 1 < code.toNat) ∧ d.block n code data = .bad d.r) ∨
    (d.code = none ∧ badBlock n d.r code = false ∧ code.toNat ≤ data.length + 1 ∧
      d.block n code data = .go ({ d with out := d.out ++ data.take (code.toNat - 1) }.completeBlock n code)) := by
  unfold DecRegs.block
  cases hc : d.code with
  | some c => simp
  | none =>
    cases hb : badBlock n d.r code with
    | true => simp
    | false =>
      by_cases hl : data.length + 1 < code.toNat
      · simp [hl]
      · simp [hl, Nat.not_lt.mp hl]

/-- A code byte alone: out of place, bad, complete at once, or an open block (R151 to R154). -/
theorem DecRegs.openBlock_cases (n : Nat) (code : Byte) (d : DecRegs) :
    (d.code ≠ none ∧ d.openBlock n code = .outOfPlace) ∨
    (d.code = none ∧ badBlock n d.r code = true ∧ d.openBlock n code = .bad d.r) ∨
    (d.code = none ∧ badBlock n d.r code = false ∧ code = 1 ∧ d.openBlock n code = .go (d.completeBlock n code)) ∨
    (d.code = none ∧ badBlock n d.r code = false ∧ code ≠ 1 ∧
      d.openBlock n code = .go { d with code := some code, got := 0 }) := by
  unfold DecRegs.openBlock
  cases hc : d.code with
  | some c => simp
  | none =>
    cases hb : badBlock n d.r code with
    | true => simp
    | false =>
      by_cases h1 : code = 1
      · simp [h1]
      · exact .inr (.inr (.inr ⟨rfl, rfl, h1, by simp only [Bool.false_eq_true, if_false, if_neg h1]⟩))

/-- A bad block: a zero code, or one that runs past the end (R152, R153). -/
theorem badBlock_eq_false {n r : Nat} {code : Byte} :
    badBlock n r code = false ↔ code ≠ 0 ∧ r + code.toNat ≤ n := by
  simp [badBlock]

/-! ### The encoder -/

/-- What the encoder emits from here depends on its block alone (R133, R134). -/
theorem encodeFrom_congr (rule : Config.CapRule) {r q : EncRegs} (hc : r.code = q.code) (hb : r.blk = q.blk)
    (input : Bytes) : encodeFrom rule r input = encodeFrom rule q input := by
  induction input generalizing r q with
  | nil => simp [encodeFrom, EncRegs.close, hc, hb]
  | cons b input ih =>
    have h2 : (r.byte rule b).2 = (q.byte rule b).2 := by
      cases rule <;>
        simp only [EncRegs.byte, EncRegs.byteLiteral, EncRegs.byteCloseOnFill, EncRegs.close, EncRegs.append, hc, hb] <;>
        (repeat' split) <;> simp_all
    have h1 : (r.byte rule b).1.code = (q.byte rule b).1.code ∧ (r.byte rule b).1.blk = (q.byte rule b).1.blk := by
      cases rule <;>
        simp only [EncRegs.byte, EncRegs.byteLiteral, EncRegs.byteCloseOnFill, EncRegs.close, EncRegs.append, hc, hb] <;>
        (repeat' split) <;> simp_all
    simp [encodeFrom, h2, ih h1.1 h1.2]

/-- `calc_crc` takes a last byte with one more step (R112). -/
theorem calcCrc_append (p : Bytes) (b : Byte) : calcCrc (p ++ [b]) = crcByte (calcCrc p) b := by
  simp [calcCrc, List.foldl_append]

end Sys2Proof.Machine
end

