-- ==== Sys2Proof/Laws/PerInstr.lean ====
section
/-! SUPPORT. A family of statements about every instruction as syntax: an operation is encoded as a start request, a wire
element as an element of the line (R96, R97). -/

namespace Sys2Proof

/-- Whether a word is a start request. -/
def InputWord.isStart : InputWord → Bool
  | .start _ _ => true
  | .line _ _ => false

namespace Laws.Port

/-- The encoding of an instruction is a start request exactly when it is an operation. -/
def Statement (i : Instr) : Prop := (encode i).isStart = i.isOp

theorem calcCrc (payload : Bytes) : Statement (.calcCrc payload) := rfl

theorem stuff (input : Bytes) (out : OutBuf) : Statement (.stuff input out) := rfl

theorem unstuff (input : Bytes) (out : OutBuf) : Statement (.unstuff input out) := rfl

theorem encodeAndSend (command : Byte) (payload : Bytes) : Statement (.encodeAndSend command payload) := rfl

theorem receiveAndDecode : Statement .receiveAndDecode := rfl

theorem sendAck (command : Byte) : Statement (.sendAck command) := rfl

theorem waitAck (expected : Byte) : Statement (.waitAck expected) := rfl

theorem sendResetSequence : Statement .sendResetSequence := rfl

theorem readUntilSequence (seq : Bytes) : Statement (.readUntilSequence seq) := rfl

theorem reservedOpsel (code : BitVec 4) : Statement (.reservedOpsel code) := rfl

theorem frameE (command : Byte) : Statement (.frameE command) := rfl

theorem frameP (command : Byte) (region : Bytes) : Statement (.frameP command region) := rfl

theorem frameCommand (command : Byte) : Statement (.frameCommand command) := rfl

theorem frameDelim : Statement .frameDelim := rfl

theorem cobsBlock (code : Byte) (data : Bytes) : Statement (.cobsBlock code data) := rfl

theorem cobsCodeShort (code : Byte) : Statement (.cobsCodeShort code) := rfl

theorem cobsCodeFull : Statement .cobsCodeFull := rfl

theorem cobsCodeZero : Statement .cobsCodeZero := rfl

theorem cobsData (data : Byte) : Statement (.cobsData data) := rfl

theorem crcByte (crc : Byte) : Statement (.crcByte crc) := rfl

theorem resetSequence : Statement .resetSequence := rfl

end Laws.Port

end Sys2Proof
end

