-- ==== Sys2Proof/Tests/Slice0.lean ====
section
/-! SUPPORT. Tests of the model against the spec: ill-formed terms that WellFormed refuses, words written out from the
encodings, the source's and the derived vectors of 95_test_vectors.md, and one witness for every statement with
hypotheses. Expected values are the spec's. -/

set_option maxRecDepth 40000

namespace Sys2Proof.Tests

open Sys2Proof.Machine

/-! ### WellFormed: an ill-formed term for each check -/

theorem test_wf_emptySequence : (Instr.readUntilSequence []).wf = false := by decide
theorem test_wf_reservedOpsel : (Instr.reservedOpsel 8).wf = false := by decide
theorem test_wf_frameP_empty : (Instr.frameP 0x64 []).wf = false := by decide
theorem test_wf_frameP_delimiter : (Instr.frameP 0x64 [0x02, 0x00]).wf = false := by decide
theorem test_wf_block_length : (Instr.cobsBlock 0x03 [0x11]).wf = false := by decide
theorem test_wf_block_delimiter : (Instr.cobsBlock 0x03 [0x11, 0x00]).wf = false := by decide
theorem test_wf_codeShort_zero : (Instr.cobsCodeShort 0x00).wf = false := by decide
theorem test_wf_codeShort_full : (Instr.cobsCodeShort 0xFF).wf = false := by decide
theorem test_wf_data_delimiter : (Instr.cobsData 0x00).wf = false := by decide

/-! ### Decode: words written out from the spec (R96, R81 to R94), and rejections -/

/-- Operands for the decode tests. -/
def someOperands : Operands := { command := 0x64, seq := [0xAA, 0x00], out := { cap := some 9, overlapsInput := false } }

theorem test_decode_calcCrc : decode (.start 0b0000 someOperands) = .ok (.calcCrc [0xAA, 0x00]) := by rfl
theorem test_decode_stuff :
    decode (.start 0b0001 someOperands) = .ok (.stuff [0xAA, 0x00] { cap := some 9, overlapsInput := false }) := by rfl
theorem test_decode_unstuff :
    decode (.start 0b0010 someOperands) = .ok (.unstuff [0xAA, 0x00] { cap := some 9, overlapsInput := false }) := by rfl
theorem test_decode_encodeAndSend : decode (.start 0b0011 someOperands) = .ok (.encodeAndSend 0x64 [0xAA, 0x00]) := by rfl
theorem test_decode_receiveAndDecode : decode (.start 0b0100 someOperands) = .ok .receiveAndDecode := by rfl
theorem test_decode_sendAck : decode (.start 0b0101 someOperands) = .ok (.sendAck 0x64) := by rfl
theorem test_decode_waitAck : decode (.start 0b0110 someOperands) = .ok (.waitAck 0x64) := by rfl
theorem test_decode_sendResetSequence : decode (.start 0b0111 someOperands) = .ok .sendResetSequence := by rfl
theorem test_decode_readUntil : decode (.start 0b1000 someOperands) = .ok (.readUntilSequence [0xAA, 0x00]) := by rfl
theorem test_decode_reserved_first : decode (.start 0b1001 someOperands) = .ok (.reservedOpsel 9) := by rfl
theorem test_decode_reserved_last : decode (.start 0b1111 someOperands) = .ok (.reservedOpsel 15) := by rfl
theorem test_decode_frameE : decode (.line .frame [0x73, 0x00]) = .ok (.frameE 0x73) := by rfl
theorem test_decode_frameP :
    decode (.line .frame [0x64, 0x03, 0xFF, 0xA8, 0x00]) = .ok (.frameP 0x64 [0x03, 0xFF, 0xA8]) := by rfl
theorem test_decode_frameCommand : decode (.line .command [0x64]) = .ok (.frameCommand 0x64) := by rfl
theorem test_decode_frameDelim : decode (.line .delim [0x00]) = .ok .frameDelim := by rfl
theorem test_decode_cobsBlock : decode (.line .block [0x02, 0xAA]) = .ok (.cobsBlock 0x02 [0xAA]) := by rfl
theorem test_decode_codeShort : decode (.line .code [0xFE]) = .ok (.cobsCodeShort 0xFE) := by rfl
theorem test_decode_codeFull : decode (.line .code [0xFF]) = .ok .cobsCodeFull := by rfl
theorem test_decode_codeZero : decode (.line .code [0x00]) = .ok .cobsCodeZero := by rfl
theorem test_decode_cobsData : decode (.line .data [0xBB]) = .ok (.cobsData 0xBB) := by rfl
theorem test_decode_crcByte : decode (.line .crc [0xC4]) = .ok (.crcByte 0xC4) := by rfl
theorem test_decode_resetSequence :
    decode (.line .resync [0x00, 0x00, 0x00, 0x72, 0x00, 0x00, 0x00]) = .ok .resetSequence := by rfl
theorem test_reject_noDelimiter : decode (.line .frame [0x64, 0x03]) = .error .noDelimiter := by rfl
theorem test_reject_delimiterInside : decode (.line .frame [0x64, 0x00, 0x01, 0x00]) = .error .delimiterInside := by rfl
theorem test_reject_zeroCode : decode (.line .block [0x00]) = .error .zeroCode := by rfl
theorem test_reject_blockLength : decode (.line .block [0x03, 0x11]) = .error .blockLength := by rfl
theorem test_reject_resync : decode (.line .resync [0x00, 0x00, 0x72, 0x00, 0x00]) = .error .notResetSequence := by rfl
theorem test_tableWord_frameE : decodeTableWord 16 0x7300 = some (.frameE 0x73) := by rfl
theorem test_tableWord_codeFull : decodeTableWord 8 0xFF = some .cobsCodeFull := by rfl
theorem test_tableWord_sendAck : decodeTableWord 8 0x5 = some (.sendAck 0x00) := by rfl
theorem test_step_runs_tableWord : step (State.reset.withFetchWord 8 0x7) = exec .sendResetSequence State.reset := by rfl

/-! ### The CRC: 95_test_vectors.md section 2.1 -/

/-- V-C-TABLE, rows 0 to 7. -/
def tableLow : Bytes :=
  [0x00, 0x4D, 0x9A, 0xD7, 0x79, 0x34, 0xE3, 0xAE, 0xF2, 0xBF, 0x68, 0x25, 0x8B, 0xC6, 0x11, 0x5C] ++
  [0xA9, 0xE4, 0x33, 0x7E, 0xD0, 0x9D, 0x4A, 0x07, 0x5B, 0x16, 0xC1, 0x8C, 0x22, 0x6F, 0xB8, 0xF5] ++
  [0x1F, 0x52, 0x85, 0xC8, 0x66, 0x2B, 0xFC, 0xB1, 0xED, 0xA0, 0x77, 0x3A, 0x94, 0xD9, 0x0E, 0x43] ++
  [0xB6, 0xFB, 0x2C, 0x61, 0xCF, 0x82, 0x55, 0x18, 0x44, 0x09, 0xDE, 0x93, 0x3D, 0x70, 0xA7, 0xEA] ++
  [0x3E, 0x73, 0xA4, 0xE9, 0x47, 0x0A, 0xDD, 0x90, 0xCC, 0x81, 0x56, 0x1B, 0xB5, 0xF8, 0x2F, 0x62] ++
  [0x97, 0xDA, 0x0D, 0x40, 0xEE, 0xA3, 0x74, 0x39, 0x65, 0x28, 0xFF, 0xB2, 0x1C, 0x51, 0x86, 0xCB] ++
  [0x21, 0x6C, 0xBB, 0xF6, 0x58, 0x15, 0xC2, 0x8F, 0xD3, 0x9E, 0x49, 0x04, 0xAA, 0xE7, 0x30, 0x7D] ++
  [0x88, 0xC5, 0x12, 0x5F, 0xF1, 0xBC, 0x6B, 0x26, 0x7A, 0x37, 0xE0, 0xAD, 0x03, 0x4E, 0x99, 0xD4]

/-- V-C-TABLE, rows 8 to F. -/
def tableHigh : Bytes :=
  [0x7C, 0x31, 0xE6, 0xAB, 0x05, 0x48, 0x9F, 0xD2, 0x8E, 0xC3, 0x14, 0x59, 0xF7, 0xBA, 0x6D, 0x20] ++
  [0xD5, 0x98, 0x4F, 0x02, 0xAC, 0xE1, 0x36, 0x7B, 0x27, 0x6A, 0xBD, 0xF0, 0x5E, 0x13, 0xC4, 0x89] ++
  [0x63, 0x2E, 0xF9, 0xB4, 0x1A, 0x57, 0x80, 0xCD, 0x91, 0xDC, 0x0B, 0x46, 0xE8, 0xA5, 0x72, 0x3F] ++
  [0xCA, 0x87, 0x50, 0x1D, 0xB3, 0xFE, 0x29, 0x64, 0x38, 0x75, 0xA2, 0xEF, 0x41, 0x0C, 0xDB, 0x96] ++
  [0x42, 0x0F, 0xD8, 0x95, 0x3B, 0x76, 0xA1, 0xEC, 0xB0, 0xFD, 0x2A, 0x67, 0xC9, 0x84, 0x53, 0x1E] ++
  [0xEB, 0xA6, 0x71, 0x3C, 0x92, 0xDF, 0x08, 0x45, 0x19, 0x54, 0x83, 0xCE, 0x60, 0x2D, 0xFA, 0xB7] ++
  [0x5D, 0x10, 0xC7, 0x8A, 0x24, 0x69, 0xBE, 0xF3, 0xAF, 0xE2, 0x35, 0x78, 0xD6, 0x9B, 0x4C, 0x01] ++
  [0xF4, 0xB9, 0x6E, 0x23, 0x8D, 0xC0, 0x17, 0x5A, 0x06, 0x4B, 0x9C, 0xD1, 0x7F, 0x32, 0xE5, 0xA8]

theorem test_crcTable_low :
    (List.range 128).map (fun v => crcByte 0x00 (BitVec.ofNat 8 v)) = tableLow := by decide +kernel
theorem test_crcTable_high :
    (List.range 128).map (fun v => crcByte 0x00 (BitVec.ofNat 8 (v + 128))) = tableHigh := by decide +kernel

/-- V-C11: "123456789". -/
theorem test_crc_digits : calcCrc [0x31, 0x32, 0x33, 0x34, 0x35, 0x36, 0x37, 0x38, 0x39] = 0xC3 := by decide +kernel

/-! ### The codec: sections 2.2 and 2.3 -/

/-- The ascending run `{a..b}` of 95_test_vectors.md. -/
def ascending (a b : Nat) : Bytes := (List.range (b + 1 - a)).map fun k => BitVec.ofNat 8 (a + k)

/-- V-S9: a block of 254 data bytes, no trailing `01`. -/
theorem test_stuff_fullBlock : stuff (ascending 0x01 0xFE) = 0xFF :: ascending 0x01 0xFE := by decide +kernel
/-- V-S11: the zero on the full block is lost. -/
theorem test_stuff_lostZero :
    stuff (ascending 0x01 0xFE ++ [0x00]) = 0xFF :: ascending 0x01 0xFE ++ [0x01] := by decide +kernel
/-- V-S11 under the optional reading of C1. -/
theorem test_closeOnFill :
    stuffWith .closeOnFill (ascending 0x01 0xFE ++ [0x00]) =
      0xFF :: ascending 0x01 0xFE ++ [0x01, 0x01] := by decide +kernel
/-- V-S7. -/
theorem test_stuff_split : stuff [0x11, 0x22, 0x00, 0x33] = [0x03, 0x11, 0x22, 0x02, 0x33] := by decide
/-- V-U13: no zero after a full block. -/
theorem test_unstuff_full :
    unstuff (0xFF :: List.replicate 254 0x07 ++ [0x02, 0x09]) = .ok (List.replicate 254 0x07 ++ [0x09]) := by rfl
/-- V-U16: a zero after a block of code 254. -/
theorem test_unstuff_short :
    unstuff (0xFE :: ascending 0x01 0xFD ++ [0x01]) = .ok (ascending 0x01 0xFD ++ [0x00]) := by rfl
/-- V-U7b and V-U8. -/
theorem test_unstuff_bad :
    unstuff [0x02, 0x11, 0x00, 0x05] = .error 2 ∧ unstuff [0x05, 0x01, 0x02, 0x03] = .error 0 := ⟨rfl, rfl⟩

/-! ### The operations: sections 2.4 to 2.6 -/

/-- What a caller sees of an outcome: `ok`, `err`, the result, the unread bytes. -/
def seen : Out → Option (Bool × ErrKind × Result × Bytes)
  | .next t => some (t.ok, t.err, t.result, t.rx)
  | .fault _ => none
  | .refused _ => none

/-- The TX stream of an outcome. -/
def written : Out → Option Bytes
  | .next t => some t.tx
  | .fault _ => none
  | .refused _ => none

/-- The machine after reset with these bytes arrived. -/
def given (rx : Bytes) : State := { State.reset with rx := rx }

/-- The machine after reset with these parameters. -/
def limited (rxBufMax lenW : Option Nat) : State :=
  { State.reset with params := { rxBufMax := rxBufMax, lenW := lenW, capRule := .literal } }

/-- The same with these bytes arrived. -/
def limitedGiven (rxBufMax lenW : Option Nat) (rx : Bytes) : State := { limited rxBufMax lenW with rx := rx }

/-- V-F2. -/
theorem test_encodeAndSend :
    written (exec (.encodeAndSend 0x64 [0xAA, 0x00, 0xBB]) State.reset) =
      some [0x64, 0x02, 0xAA, 0x03, 0xBB, 0xC4, 0x00] := by decide
/-- V-F3: a payload of one `0x00` takes the long path. -/
theorem test_encodeAndSend_zero :
    written (exec (.encodeAndSend 0x64 [0x00]) State.reset) = some [0x64, 0x01, 0x01, 0x01, 0x00] := by decide
/-- V-D2, with bytes after the frame. -/
theorem test_receive :
    seen (exec .receiveAndDecode (given [0x64, 0x02, 0xAA, 0x03, 0xBB, 0xC4, 0x00, 0x73])) =
      some (true, .none, .packet 0x64 [0xAA, 0x00, 0xBB], [0x73]) := by decide
/-- V-D3. -/
theorem test_receive_crcMismatch :
    seen (exec .receiveAndDecode (given [0x64, 0x02, 0xAA, 0x03, 0xBB, 0xC5, 0x00])) =
      some (false, .crcMismatch, .nothing, []) := by decide
/-- V-A1. -/
theorem test_sendAck : written (exec (.sendAck 0x64) State.reset) = some [0x64, 0x00] := by decide
/-- V-A3 and V-A7. -/
theorem test_waitAck :
    seen (exec (.waitAck 0x64) (given [0x65, 0x00])) = some (false, .malformedAck, .nothing, []) ∧
    seen (exec (.waitAck 0x64) (given [0x64, 0x01, 0x01, 0x00])) = some (true, .none, .nothing, []) := by decide
/-- V-A4: a decode error keeps its kind. -/
theorem test_waitAck_decodeError :
    seen (exec (.waitAck 0x64) (given [0x64, 0x01, 0x00])) = some (false, .invalidEncoding, .nothing, []) := by decide
/-- V-A8. -/
theorem test_sendResetSequence :
    written (exec .sendResetSequence State.reset) = some [0x00, 0x00, 0x00, 0x72, 0x00, 0x00, 0x00] := by decide
/-- V-A11. -/
theorem test_readUntilSequence :
    seen (exec (.readUntilSequence [0x00]) (given [0x64, 0x02, 0xAA, 0x00, 0x99])) =
      some (true, .none, .bytes [0x64, 0x02, 0xAA, 0x00], [0x99]) := by decide
/-- V-D16: the fifth byte does not fit. -/
theorem test_receive_bufferLimit :
    seen (exec .receiveAndDecode { limited (some 4) none with rx := [0x64, 0x02, 0xAA, 0x03, 0xBB, 0xC4, 0x00] }) =
      some (false, .allocationFailure, .nothing, [0xC4, 0x00]) := by decide

/-- A decoder that has read nothing of this input. -/
def decoding (input : Bytes) : State :=
  { State.reset with op := some (.unstuff input { cap := none, overlapsInput := false }), dec := DecRegs.start }

/-- A receive operation that has these bytes in its buffer and waits. -/
def receiving (buf : Bytes) : State :=
  { State.reset with op := some .receiveAndDecode, dfr := { DeframerRegs.start with buf := buf } }

/-- R152: the reserved code ends the decoder's operation with `InvalidEncoding`. -/
theorem test_codeZero : seen (exec .cobsCodeZero (decoding [0x00])) = some (false, .invalidEncoding, .nothing, []) := by
  decide
/-- R153: a full code with 253 bytes after it runs past the end (V-U14). -/
theorem test_codeFull :
    seen (exec .cobsCodeFull (decoding (0xFF :: List.replicate 253 0x07))) =
      some (false, .invalidEncoding, .nothing, []) := by decide +kernel
/-- R53, R191: the delimiter ends reception of a pending read. -/
theorem test_frameDelim :
    exec .frameDelim (receiving [0x73]) =
      .next { receiving [0x73] with dfr := { DeframerRegs.start with buf := [0x73, 0x00], phase := .split } } := by rfl
/-- P5: the reset strikes `encode_and_send` after four bytes; the prefix stays on the wire. -/
theorem test_interrupted_send :
    written (step
      { State.reset with
        op := some (.encodeAndSend 0x64 [0xAA, 0x00, 0xBB])
        frm := { FramerRegs.start with phase := .stuff, frmCrc := 0xC4, i := 3 }
        tx := [0x64, 0x02, 0xAA, 0x03], inputs := [.reset] }) = some [0x64, 0x02, 0xAA, 0x03] := by decide

/-- R54: the caller's write reaches the payload of the running send, and nothing of a running receive. -/
theorem test_rewrite :
    step { State.reset with op := some (.encodeAndSend 0x64 [0xAA, 0xBB]), inputs := [.rewrite 1 0x11] } =
      .next { State.reset with op := some (.encodeAndSend 0x64 [0xAA, 0x11]) } ∧
    step { receiving [0x64] with inputs := [.rewrite 0 0x11] } = .next (receiving [0x64]) := ⟨rfl, rfl⟩

/-- R54: with the CRC of the first version in `frm_crc`, the stuffing pass reads the second. -/
theorem test_rewritten_payload_is_stuffed :
    advance (({ State.reset with
        op := some (.encodeAndSend 0x64 [0xAA])
        frm := { FramerRegs.start with phase := .stuff, frmCrc := 0x0B, enc := EncRegs.start } } : State).rewritePayload 0 0x11) =
      .next { State.reset with
        op := some (.encodeAndSend 0x64 [0x11])
        frm := { FramerRegs.start with
          phase := .stuff, frmCrc := 0x0B, i := 1, enc := { EncRegs.start with code := 2, blk := [0x11] } } } := by rfl

/-! ### Witnesses: a state and operands for the hypotheses of each statement -/

theorem witness_EncodedInstructionDecodesBack : (Instr.frameP 0x64 [0x03, 0xFF, 0xA8]).wf = true := by decide

theorem witness_DecodedLineWordEncodesBack : decode (.line .block [0x02, 0xAA]) = .ok (.cobsBlock 0x02 [0xAA]) := by rfl

theorem witness_ReservedSelectCodesAreRefused : 9 ≤ (9 : BitVec 4).toNat ∧ 9 ≤ (15 : BitVec 4).toNat := by decide

theorem witness_StartWhileBusyIsRefused :
    Instr.receiveAndDecode.isOp = true ∧ (∀ code, Instr.receiveAndDecode ≠ .reservedOpsel code) ∧
    (receiving []).op ≠ none := ⟨rfl, (by intro _ h; cases h), by decide⟩

theorem witness_BadOperandsAreRefused_length :
    (limited none (some 1)).op = none ∧ (limited none (some 1)).params.lenW = some 1 ∧
    2 ^ 1 ≤ ([0x11, 0x22] : Bytes).length ∧ ([0x11, 0x22] : Bytes) ≠ [] := by decide

theorem witness_BadOperandsAreRefused_overlap :
    State.reset.op = none ∧ fitsLenW State.reset.params ([0x11] : Bytes).length = true ∧
    ({ cap := some 9, overlapsInput := true } : OutBuf).overlapsInput = true := by decide

theorem witness_BadOperandsAreRefused_capacity :
    State.reset.op = none ∧ fitsLenW State.reset.params ([0x01, 0x01] : Bytes).length = true ∧
    State.reset.params.capRule = .literal ∧ 2 < (stuff [0x01, 0x01]).length ∧
    unstuff [0x01, 0x01] = .ok [0x00] ∧ 0 < ([0x00] : Bytes).length := by
  refine ⟨rfl, rfl, rfl, by decide, rfl, by decide⟩

theorem witness_CalcCrcResult :
    (limited none (some 1)).op = none ∧ fitsLenW (limited none (some 1)).params ([0xFF] : Bytes).length = true := by decide

theorem witness_CrcLaws : ([0x01, 0x80] : Bytes).length = ([0x80, 0x01] : Bytes).length := by decide

theorem witness_CrcSeesEverySingleBit : ([0x80, 0x01] : Bytes)[1]? = some 0x01 ∧ 7 < 8 := by decide

theorem witness_StuffResult :
    State.reset.op = none ∧ fitsLenW State.reset.params ([0x00] : Bytes).length = true ∧
    (∀ cap, (some 2 : Option Nat) = some cap → (stuffWith State.reset.params.capRule [0x00]).length ≤ cap) := by
  refine ⟨rfl, rfl, ?_⟩
  intro cap h
  cases h
  decide

theorem witness_StuffOutputLength : 0 < (List.replicate 254 (0x07 : Byte)).length ∧ 254 ∣ 254 := by decide +kernel

theorem witness_RoundTripExactly :
    losesZero (List.replicate 254 0x07 ++ [0x00]) = true ∧ losesZero (List.replicate 253 0x07 ++ [0x00]) = false ∧
    (List.replicate 253 (0x07 : Byte) ++ [0x00]).length ≤ 254 ∧ (0x00 : Byte) ∉ List.replicate 254 (0x07 : Byte) := by
  decide +kernel

theorem witness_EncoderStepsStayLegal :
    encGood .literal { EncRegs.start with code := 255, blk := List.replicate 254 0x07 } = true ∧
    encGood .closeOnFill { EncRegs.start with code := 254, blk := List.replicate 253 0x07 } = true := by decide +kernel

theorem witness_UnstuffResult :
    State.reset.op = none ∧ (∀ b ∈ ([(0x02, [0x11]), (0x01, [])] : List Block), blockFits b = true) ∧
    fitsLenW State.reset.params (blockBytes [(0x02, [0x11]), (0x01, [])]).length = true ∧
    (joinBlocks [(0x02, [0x11]), (0x01, [])]).length ≤ 2 ∧
    fitsLenW State.reset.params (blockBytes [(0x02, [0x11]), (0x01, [])] ++ 0x00 :: []).length = true ∧
    fitsLenW State.reset.params (blockBytes [(0x02, [0x11]), (0x01, [])] ++ 0x03 :: [0x11]).length = true ∧
    ([0x11] : Bytes).length + 1 < (0x03 : Byte).toNat := by decide

theorem witness_UnstuffOutputBound : unstuff [0x01, 0x01] = .ok [0x00] ∧ ([0x01, 0x01] : Bytes) ≠ [] := ⟨rfl, by decide⟩

theorem witness_UnstuffCopiesVerbatim :
    (List.replicate 254 (0x00 : Byte)).length ≤ 254 ∧ (List.replicate 254 (0x07 : Byte)).length = 254 := by decide +kernel

theorem witness_BareCommandFrame : State.reset.op = none := by decide

theorem witness_PayloadFrame :
    (limited none (some 1)).op = none ∧ ([0x00] : Bytes) ≠ [] ∧
    fitsLenW (limited none (some 1)).params ([0x00] : Bytes).length = true := by decide

theorem witness_PayloadFrame_rewritten :
    State.reset.op = none ∧ ([0xAA, 0xBB] : Bytes) ≠ [] ∧ 3 = ([0xAA, 0xBB] : Bytes).length + 1 ∧
    begin (.encodeAndSend 0x64 [0xAA, 0xBB]) State.reset =
      .next (State.reset.begun (.encodeAndSend 0x64 [0xAA, 0xBB])) := ⟨rfl, by decide, rfl, rfl⟩

theorem witness_FrameHasOneDelimiter :
    (0x64 : Byte) ≠ 0x00 ∧ ∃ t, exec (.encodeAndSend 0x64 [0xAA, 0x00]) State.reset = .next t := ⟨by decide, _, rfl⟩

theorem witness_FrameLength :
    (List.replicate 253 (0x07 : Byte)) ≠ [] ∧ (List.replicate 253 (0x07 : Byte)).length ≤ 253 := by decide +kernel

theorem witness_InterruptedSendLeavesPrefix :
    State.reset.op = none ∧
    begin (.encodeAndSend 0x64 [0xAA]) State.reset = .next (State.reset.begun (.encodeAndSend 0x64 [0xAA])) ∧
    ∃ t, advanceN 1 (State.reset.begun (.encodeAndSend 0x64 [0xAA])) = .next t ∧ t.op ≠ none :=
  ⟨rfl, rfl, _, rfl, by decide⟩

theorem witness_InterruptedSendLeavesPrefix_ack :
    begin (.sendAck 0x64) State.reset = .next (State.reset.begun (.sendAck 0x64)) ∧ (0x64 : Byte) ≠ 0x00 ∧
    ∃ t, advanceN 1 (State.reset.begun (.sendAck 0x64)) = .next t ∧ t.op ≠ none := ⟨rfl, by decide, _, rfl, by decide⟩

theorem witness_InterruptedSendLeavesPrefix_resync :
    begin .sendResetSequence State.reset = .next (State.reset.begun .sendResetSequence) ∧
    ∃ t, advanceN 1 (State.reset.begun .sendResetSequence) = .next t ∧ t.op ≠ none := ⟨rfl, _, rfl, by decide⟩

theorem witness_SendAckFrame : State.reset.op = none := by decide

theorem witness_ResetSequenceBytes : (given [0x64]).op = none := by decide

theorem witness_ReceiveBareCommand :
    (limitedGiven (some 2) (some 2) [0x73, 0x00, 0x64]).op = none ∧
    roomFor (limitedGiven (some 2) (some 2) [0x73, 0x00, 0x64]).params 2 = true ∧ (0x73 : Byte) ≠ 0x00 ∧
    (limitedGiven (some 2) (some 2) [0x73, 0x00, 0x64]).rx = 0x73 :: 0x00 :: [0x64] := by decide

theorem witness_ReceivePayloadFrame :
    (limitedGiven (some 5) (some 3) [0x64, 0x03, 0xFF, 0xA8, 0x00]).op = none ∧
    roomFor (limitedGiven (some 5) (some 3) [0x64, 0x03, 0xFF, 0xA8, 0x00]).params
      (([0x03, 0xFF, 0xA8] : Bytes).length + 2) = true ∧
    (0x64 : Byte) ≠ 0x00 ∧ ([0x03, 0xFF, 0xA8] : Bytes) ≠ [] ∧ (0x00 : Byte) ∉ ([0x03, 0xFF, 0xA8] : Bytes) ∧
    unstuff [0x03, 0xFF, 0xA8] = .ok ([0xFF] ++ [0xA8]) ∧
    (limitedGiven (some 5) (some 3) [0x64, 0x03, 0xFF, 0xA8, 0x00]).rx = 0x64 :: [0x03, 0xFF, 0xA8] ++ 0x00 :: [] :=
  ⟨rfl, by decide, by decide, by decide, by decide, rfl, rfl⟩

theorem witness_ReceivePayloadFrame_mismatch : unstuff [0x03, 0xFF, 0xA9] = .ok ([0xFF] ++ [0xA9]) ∧ calcCrc [0xFF] ≠ 0xA9 :=
  ⟨rfl, by decide⟩

theorem witness_ReceiveRejectsUndecodable :
    (limitedGiven (some 1) (some 1) [0x00]).op = none ∧ roomFor (limitedGiven (some 1) (some 1) [0x00]).params 1 = true ∧
    (limitedGiven (some 1) (some 1) [0x00]).rx = 0x00 :: [] :=
  ⟨rfl, by decide, rfl⟩

theorem witness_ReceiveRejectsUndecodable_region :
    (given [0x64, 0x01, 0x00]).op = none ∧
    roomFor (given [0x64, 0x01, 0x00]).params (([0x01] : Bytes).length + 2) = true ∧
    (0x64 : Byte) ≠ 0x00 ∧ ([0x01] : Bytes) ≠ [] ∧ (0x00 : Byte) ∉ ([0x01] : Bytes) ∧
    (given [0x64, 0x01, 0x00]).rx = 0x64 :: [0x01] ++ 0x00 :: [] ∧ unstuff [0x01] = .ok [] ∧
    (given [0x64, 0x02, 0x00]).rx = 0x64 :: [0x02] ++ 0x00 :: [] ∧ unstuff [0x02] = .error 0 :=
  ⟨rfl, by decide, by decide, by decide, by decide, rfl, rfl, rfl, rfl⟩

theorem witness_ReceiveWaitsForDelimiter :
    (given [0x64, 0x02]).op = none ∧ roomFor (given [0x64, 0x02]).params 2 = true ∧
    (given [0x64, 0x02]).rxGone = false ∧ (0x00 : Byte) ∉ (given [0x64, 0x02]).rx ∧
    roomFor (given [0x64, 0x02]).params (2 + ([0xAA] : Bytes).length) = true ∧ (0x00 : Byte) ∉ ([0xAA] : Bytes) := by decide

theorem witness_ReceiveFailsWithTransport :
    (given [0x64]).loseTransport.op = none ∧ roomFor (given [0x64]).loseTransport.params 1 = true ∧
    (given [0x64]).loseTransport.rxGone = true ∧ (0x00 : Byte) ∉ (given [0x64]).loseTransport.rx := by decide

theorem witness_ReceiveBufferLimit :
    (limitedGiven (some 1) (some 1) [0x64, 0x02]).op = none ∧
    (limitedGiven (some 1) (some 1) [0x64, 0x02]).params.rxBufMax = some ([0x64] : Bytes).length ∧
    fitsLenW (limitedGiven (some 1) (some 1) [0x64, 0x02]).params ([0x64] : Bytes).length = true ∧
    (0x00 : Byte) ∉ ([0x64] : Bytes) ∧ (limitedGiven (some 1) (some 1) [0x64, 0x02]).rx = [0x64] ++ 0x02 :: [] := by decide

theorem witness_ReceiveBufferLimit_lenW :
    (limitedGiven (some 2) (some 1) [0x64, 0x02]).op = none ∧
    (∀ m, (limitedGiven (some 2) (some 1) [0x64, 0x02]).params.rxBufMax = some m → 2 ^ 1 ≤ m) ∧
    (limitedGiven (some 2) (some 1) [0x64, 0x02]).params.lenW = some 1 ∧ ([0x64] : Bytes).length + 1 = 2 ^ 1 ∧
    (0x00 : Byte) ∉ ([0x64] : Bytes) ∧ (limitedGiven (some 2) (some 1) [0x64, 0x02]).rx = [0x64] ++ 0x02 :: [] :=
  ⟨rfl, fun m h => by cases h; decide, rfl, rfl, by decide, rfl⟩

theorem witness_ReceiveBufferLimit_none :
    (given [0x73, 0x00]).params.rxBufMax = none ∧
    ∃ t, exec .receiveAndDecode (given [0x73, 0x00]) = .next t ∧ t.op = none := ⟨rfl, _, rfl, rfl⟩

theorem witness_ReceiveNeverReturns :
    (∃ t, exec .receiveAndDecode (given [0x73, 0x00]) = .next t ∧ t.op = none ∧ t.ok = true) ∧
    ∃ t, exec .receiveAndDecode (given [0x00]) = .next t ∧ t.op = none ∧ t.ok = false :=
  ⟨⟨_, rfl, rfl, rfl⟩, ⟨_, rfl, rfl, rfl⟩⟩

theorem witness_SentFrameIsReceived :
    (given (frameOf .literal 0x64 [0xAA, 0x00, 0xBB])).op = none ∧ (0x64 : Byte) ≠ 0x00 ∧
    roomFor (given (frameOf .literal 0x64 [0xAA, 0x00, 0xBB])).params
      (frameOf .literal 0x64 [0xAA, 0x00, 0xBB]).length = true ∧
    (given (frameOf .literal 0x64 [0xAA, 0x00, 0xBB])).rx = frameOf .literal 0x64 [0xAA, 0x00, 0xBB] ++ [] ∧
    losesZero ([0xAA, 0x00, 0xBB] ++ [calcCrc [0xAA, 0x00, 0xBB]]) = false := by decide

/-- V-F11: the payload whose CRC is the lost zero. -/
theorem witness_SentFrameIsReceived_lastByte :
    calcCrc (ascending 0x01 0xFD ++ [0x4E]) = 0x00 ∧
    survivors (ascending 0x01 0xFD ++ [0x4E] ++ [calcCrc (ascending 0x01 0xFD ++ [0x4E])]) =
      ascending 0x01 0xFD ++ [0x4E] := by decide +kernel

/-- V-F12: a zero inside the payload is lost. -/
theorem witness_SentFrameIsReceived_innerZero :
    survivors (ascending 0x01 0xFE ++ [0x00] ++ [calcCrc (ascending 0x01 0xFE ++ [0x00])]) =
      ascending 0x01 0xFE ++ [0x2A] := by decide +kernel

theorem witness_ReceivingInPieces :
    State.reset.op = none ∧ State.reset.rxGone = false ∧
    ∃ w v, exec .receiveAndDecode { State.reset with rx := [0x73] } = .next w ∧ arrive [0x00] w = .next v :=
  ⟨rfl, rfl, _, _, rfl, rfl⟩

theorem witness_WaitAckResult :
    roomFor (limited (some 2) none).params 2 = true ∧ (0x64 : Byte) ≠ 0x00 ∧
    (∃ r, exec .receiveAndDecode (given [0x64]) = .next r ∧ r.op ≠ none) ∧
    (∃ r, exec .receiveAndDecode (given [0x00]) = .next r ∧ r.op = none ∧ r.ok = false) ∧
    ∃ r, exec .receiveAndDecode (given [0x64, 0x00]) = .next r ∧ r.op = none ∧ r.ok = true ∧ r.result = .packet 0x64 [] :=
  ⟨by decide, by decide, ⟨_, rfl, by decide⟩, ⟨_, rfl, rfl, rfl⟩, ⟨_, rfl, rfl, rfl, rfl⟩⟩

theorem witness_WaitAckResult_payload :
    ∃ r, exec .receiveAndDecode (given [0x64, 0x03, 0xFF, 0xA8, 0x00]) = .next r ∧ r.op = none ∧ r.ok = true ∧
      r.result = .packet 0x64 [0xFF] := ⟨_, rfl, rfl, rfl, rfl⟩

theorem witness_ReadUntilSequenceResult :
    (given [0x64, 0x00, 0x99]).op = none ∧ ([0x00] : Bytes) ≠ [] ∧
    fitsLenW (given [0x64, 0x00, 0x99]).params ([0x00] : Bytes).length = true ∧
    roomFor (given [0x64, 0x00, 0x99]).params ([0x64, 0x00] : Bytes).length = true ∧
    ([0x00] : Bytes) <:+ [0x64, 0x00] ∧ (given [0x64, 0x00, 0x99]).rx = [0x64, 0x00] ++ [0x99] ∧
    (∀ q, q <+: ([0x64, 0x00] : Bytes) → q ≠ [0x64, 0x00] → ¬ ([0x00] : Bytes) <:+ q) := by
  refine ⟨rfl, by decide, rfl, by decide, by decide, rfl, ?_⟩
  intro q hq hne
  have hm : q ∈ ([0x64, 0x00] : Bytes).inits := (List.mem_inits q _).mpr hq
  have : q = [] ∨ q = [0x64] ∨ q = [0x64, 0x00] := by simpa using hm
  rcases this with rfl | rfl | rfl
  · decide
  · decide
  · exact absurd rfl hne

theorem witness_ReadUntilSequenceResult_unseen :
    (given [0x64]).rxGone = false ∧ (given [0x64]).loseTransport.rxGone = true ∧
    ∀ q, q <+: (given [0x64]).rx → ¬ ([0x00] : Bytes) <:+ q := by
  refine ⟨rfl, rfl, ?_⟩
  intro q hq
  have hm : q ∈ ([0x64] : Bytes).inits := (List.mem_inits q _).mpr hq
  have : q = [] ∨ q = [0x64] := by simpa using hm
  rcases this with rfl | rfl <;> decide

theorem witness_ReadUntilSequenceResult_full :
    (limitedGiven (some 1) (some 2) [0x64, 0x00]).op = none ∧
    fitsLenW (limitedGiven (some 1) (some 2) [0x64, 0x00]).params ([0x00] : Bytes).length = true ∧
    (limitedGiven (some 1) (some 2) [0x64, 0x00]).params.rxBufMax = some ([0x64] : Bytes).length ∧
    fitsLenW (limitedGiven (some 1) (some 2) [0x64, 0x00]).params ([0x64] : Bytes).length = true ∧
    (∀ q, q <+: ([0x64] : Bytes) → ¬ ([0x00] : Bytes) <:+ q) ∧
    (limitedGiven (some 1) (some 2) [0x64, 0x00]).rx = [0x64] ++ 0x00 :: [] :=
  ⟨rfl, rfl, rfl, rfl, witness_ReadUntilSequenceResult_unseen.2.2, rfl⟩

theorem witness_ReadUntilSequenceResult_lenW :
    (∀ m, (limitedGiven none (some 1) [0x64, 0x00]).params.rxBufMax = some m → 2 ^ 1 ≤ m) ∧
    (limitedGiven none (some 1) [0x64, 0x00]).params.lenW = some 1 ∧
    fitsLenW (limitedGiven none (some 1) [0x64, 0x00]).params ([0x00] : Bytes).length = true ∧
    ([0x64] : Bytes).length + 1 = 2 ^ 1 ∧ (limitedGiven none (some 1) [0x64, 0x00]).rx = [0x64] ++ 0x00 :: [] :=
  ⟨by simp [limitedGiven, limited], rfl, rfl, rfl, rfl⟩

theorem witness_ResetSequenceAtReceiver :
    (limitedGiven (some 2) (some 2) (Config.resetSeq ++ [0x73])).op = none ∧
    roomFor (limitedGiven (some 2) (some 2) (Config.resetSeq ++ [0x73])).params 2 = true ∧
    (limitedGiven (some 2) (some 2) (Config.resetSeq ++ [0x73])).rx =
      [0x00, 0x00, 0x00, 0x72, 0x00, 0x00, 0x00] ++ [0x73] := by decide

theorem witness_FiveOperationsCannotFail :
    State.reset.op = none ∧ operandRefusal State.reset.params (.calcCrc [0x01]) = none ∧
    operandRefusal State.reset.params (.stuff [0x01] { cap := some 2, overlapsInput := false }) = none ∧
    operandRefusal State.reset.params (.encodeAndSend 0x64 [0x01]) = none ∧
    operandRefusal State.reset.params (.sendAck 0x64) = none ∧
    operandRefusal State.reset.params .sendResetSequence = none := by decide

theorem witness_FailureWritesNothing :
    Instr.receiveAndDecode.isOp = true ∧
    (∃ t, exec .receiveAndDecode (given [0x00]) = .next t ∧ t.op = none ∧ t.ok = false) ∧
    ∃ t, (decoding [0x00]).op ≠ none ∧ step (decoding [0x00]) = .next t ∧ t.op = none ∧ t.ok = false :=
  ⟨rfl, ⟨_, rfl, rfl, rfl⟩, ⟨_, by decide, rfl, rfl, rfl⟩⟩

theorem witness_NoOperationSeesOldRegisters :
    ({ State.reset with crc := CrcRegs.start, ok := false }).op = none ∧
    ({ State.reset with crc := CrcRegs.start, ok := false }).params = State.reset.params ∧
    (∃ t, exec (.calcCrc [0x01]) State.reset = .next t ∧ t.op = none) ∧
    ∃ t, exec .receiveAndDecode State.reset = .next t ∧ t.op ≠ none :=
  ⟨rfl, rfl, ⟨_, rfl, rfl⟩, ⟨_, rfl, by decide⟩⟩

theorem witness_FlagsWrittenOnlyAtTheEnd : ∃ t, step (receiving [0x64]) = .next t ∧ t.op ≠ none := ⟨_, rfl, by decide⟩

/-- A byte that arrives at an idle block whose last operation failed. -/
def idleArrival : State := { State.reset with ok := false, err := .crcMismatch, inputs := [.word (.line .data [0x11])] }

theorem witness_FlagsWrittenOnlyAtTheEnd_idle :
    (∃ t, step idleArrival = .next t) ∧ idleArrival.op = none ∧
    (∀ opsel o rest, idleArrival.inputs ≠ .word (.start opsel o) :: rest) ∧
    ∀ rest, idleArrival.inputs ≠ .reset :: rest := by
  refine ⟨⟨_, rfl⟩, rfl, ?_, ?_⟩ <;> simp [idleArrival]

theorem witness_CodecOperationsFrame :
    (∃ t, exec (.calcCrc [0x01]) State.reset = .next t) ∧
    (∃ t, exec (.stuff [0x01] { cap := none, overlapsInput := false }) State.reset = .next t) ∧
    ∃ t, exec (.unstuff [0x01] { cap := none, overlapsInput := false }) State.reset = .next t :=
  ⟨⟨_, rfl⟩, ⟨_, rfl⟩, ⟨_, rfl⟩⟩

theorem witness_SendingOperationsFrame :
    (∃ t, exec (.encodeAndSend 0x64 [0x01]) State.reset = .next t) ∧ (∃ t, exec (.sendAck 0x64) State.reset = .next t) ∧
    ∃ t, exec .sendResetSequence State.reset = .next t := ⟨⟨_, rfl⟩, ⟨_, rfl⟩, ⟨_, rfl⟩⟩

theorem witness_ReadingOperationsFrame :
    (∃ t, exec .receiveAndDecode (given [0x73, 0x00]) = .next t) ∧ (∃ t, exec (.waitAck 0x64) State.reset = .next t) ∧
    ∃ t, exec (.readUntilSequence [0x00]) (given [0x00]) = .next t := ⟨⟨_, rfl⟩, ⟨_, rfl⟩, ⟨_, rfl⟩⟩

theorem witness_WireElementsFrame :
    Instr.cobsCodeZero.isOp = false ∧ (∃ t, exec .cobsCodeZero (decoding [0x00]) = .next t) ∧
    (decoding [0x00]).op ≠ some .receiveAndDecode ∧ (∀ e, (decoding [0x00]).op ≠ some (.waitAck e)) ∧
    (∀ q, (decoding [0x00]).op ≠ some (.readUntilSequence q)) ∧
    ∃ t, exec .frameDelim (receiving [0x64]) = .next t ∧ t.op = (receiving [0x64]).op :=
  ⟨rfl, ⟨_, rfl⟩, by decide, by simp [decoding], by simp [decoding], _, rfl, rfl⟩

theorem witness_LineElementsArrive :
    (Instr.frameE 0x73).isOp = false ∧ State.reset.op = none ∧ State.reset.rxGone = false := by decide

theorem witness_PendingReadTakesElements :
    (Instr.frameE 0x73).isOp = false ∧ (receiving [0x64]).op = some .receiveAndDecode ∧
    (receiving [0x64]).dfr.phase = .recv ∧ (receiving [0x64]).rx = [] ∧ (receiving [0x64]).rxGone = false ∧
    onLine (.frameE 0x73) = [0x73] ++ 0x00 :: [] ∧ (0x00 : Byte) ∉ ([0x73] : Bytes) ∧
    roomFor (receiving [0x64]).params ((receiving [0x64]).dfr.buf.length + ([0x73] : Bytes).length + 1) = true ∧
    (0x00 : Byte) ∉ onLine (.cobsBlock 0x02 [0x11]) ∧
    roomFor (receiving [0x64]).params
      ((receiving [0x64]).dfr.buf.length + (onLine (.cobsBlock 0x02 [0x11])).length) = true := by decide

/-- A `read_until_sequence` for two zeros that has read one and waits. -/
def seeking : State :=
  { State.reset with op := some (.readUntilSequence [0x00, 0x00]), dfr := { DeframerRegs.start with buf := [0x00] } }

theorem witness_PendingReadTakesElements_sequence :
    seeking.op = some (.readUntilSequence [0x00, 0x00]) ∧ seeking.dfr.phase = .recv ∧ seeking.rx = [] ∧
    seeking.rxGone = false ∧ onLine .resetSequence = [0x00] ++ [0x00, 0x00, 0x72, 0x00, 0x00, 0x00] ∧
    ([0x00, 0x00] : Bytes) <:+ seeking.dfr.buf ++ [0x00] ∧
    (∀ q, q <+: ([0x00] : Bytes) → q ≠ [] → q ≠ [0x00] → ¬ ([0x00, 0x00] : Bytes) <:+ seeking.dfr.buf ++ q) ∧
    (∀ q, q <+: onLine (.cobsData 0x11) → q ≠ [] → ¬ ([0x00, 0x00] : Bytes) <:+ seeking.dfr.buf ++ q) := by
  refine ⟨rfl, rfl, rfl, rfl, rfl, by decide, ?_, ?_⟩
  · intro q hq h1 h2
    have hm : q ∈ ([0x00] : Bytes).inits := (List.mem_inits q _).mpr hq
    have : q = [] ∨ q = [0x00] := by simpa using hm
    exact absurd this (not_or.mpr ⟨h1, h2⟩)
  · intro q hq h1
    have hm : q ∈ ([0x11] : Bytes).inits := (List.mem_inits q _).mpr hq
    have : q = [] ∨ q = [0x11] := by simpa using hm
    rcases this with rfl | rfl
    · exact absurd rfl h1
    · decide

theorem witness_PendingReadTakesElements_full :
    ({ receiving [0x64] with params := (limited (some 1) none).params } : State).params.rxBufMax = some 1 ∧
    1 ≤ (receiving [0x64]).dfr.buf.length ∧ onLine (.frameCommand 0x73) = 0x73 :: [] ∧
    fitsLenW ({ receiving [0x64] with params := (limited none (some 1)).params } : State).params
      ((receiving [0x64]).dfr.buf.length + 1) = false := by decide

theorem witness_DecoderTakesElements :
    decoderRuns .standalone [0x02, 0x11, 0x01] (decoding [0x02, 0x11, 0x01]) ∧
    (decoderRegs .standalone (decoding [0x02, 0x11, 0x01])).code = none ∧
    ([0x11] : Bytes).length + 1 = (0x02 : Byte).toNat ∧ 2 ≤ (0x02 : Byte).toNat ∧
    (decoding [0x02, 0x11, 0x01]).dec.r + (0x02 : Byte).toNat ≤ ([0x02, 0x11, 0x01] : Bytes).length ∧
    ([0x02] : Bytes).length < (decoding [0x02]).dec.r + (0x02 : Byte).toNat ∧
    ([0x02] : Bytes).length < (decoding [0x02]).dec.r + 255 :=
  ⟨⟨⟨_, rfl⟩, rfl⟩, rfl, by decide, by decide, by decide, by decide, by decide⟩

/-- A deframer in UNSTUFF, with a region of two bytes in its buffer. -/
def unstuffing : State :=
  { State.reset with
    op := some (.waitAck 0x64)
    dfr := { DeframerRegs.start with
      phase := .unstuff, buf := [0x64, 0x02, 0x11, 0x00], cmd := 0x64, decoder := DecRegs.start } }

theorem witness_DecoderTakesElements_deframer :
    decoderRuns .deframer [0x02, 0x11] unstuffing ∧ (decoderRegs .deframer unstuffing).code = none :=
  ⟨⟨.inr ⟨_, rfl⟩, rfl, rfl⟩, rfl⟩

/-- The decoder in the middle of a block of three bytes, and before its last data byte. -/
def inBlock (got : Nat) : State :=
  { decoding [0x03, 0x11, 0x22] with
    dec := { DecRegs.start with code := some 0x03, got := got, out := List.replicate got 0x11 } }

theorem witness_DecoderTakesElements_open :
    decoderRuns .standalone [0x03, 0x11, 0x22] (inBlock 0) ∧ decoderRuns .standalone [0x03, 0x11, 0x22] (inBlock 1) ∧
    (inBlock 0).dec.code = some 0x03 ∧ (inBlock 0).dec.got + 2 < (0x03 : Byte).toNat ∧
    (inBlock 1).dec.code = some 0x03 ∧ (0x03 : Byte).toNat = (inBlock 1).dec.got + 2 :=
  ⟨⟨⟨_, rfl⟩, rfl⟩, ⟨⟨_, rfl⟩, rfl⟩, rfl, by decide, rfl, by decide⟩

theorem witness_DecoderTakesElements_full :
    (decoding (0xFF :: List.replicate 254 0x07)).dec.r + 255 ≤ (0xFF :: List.replicate 254 (0x07 : Byte)).length := by
  decide +kernel

theorem witness_BytewiseDecodingAgrees :
    (decoding [0x02, 0x11]).dec.phase = .run ∧ (decoding [0x02, 0x11]).dec.code = none ∧
    ∃ t, exec (.cobsBlock 0x02 [0x11]) (decoding [0x02, 0x11]) = .next t ∧ t.op ≠ none :=
  ⟨rfl, rfl, _, rfl, by decide⟩

/-- A deframer in CHECK whose CRC pass over an empty payload has ended. -/
def checking : State :=
  { State.reset with
    op := some .receiveAndDecode
    dfr := { DeframerRegs.start with phase := .check, buf := [0x64, 0x01, 0x01, 0x00], cmd := 0x64, rxDec := [0x00], crc := CrcRegs.start } }

/-- A framer in STUFF that has given its one payload byte. -/
def stuffing : State :=
  { State.reset with
    op := some (.encodeAndSend 0x64 [0xFF])
    frm := { FramerRegs.start with phase := .stuff, frmCrc := 0xA8, i := 1, enc := { EncRegs.start with code := 2, blk := [0xFF] } } }

theorem witness_CrcByteAtItsPlace_early :
    ({ checking.dfr with rxDec := [0x11, 0x00] }).crc.i < ([0x11, 0x00] : Bytes).dropLast.length := by decide

theorem witness_CrcByteAtItsPlace :
    checking.op = some .receiveAndDecode ∧ checking.dfr.phase = .check ∧
    checking.dfr.rxDec.dropLast.length ≤ checking.dfr.crc.i ∧
    stuffing.frm.phase = .stuff ∧ stuffing.frm.flush = [] ∧ stuffing.frm.enc.phase = .run ∧
    ([0xFF] : Bytes).length ≤ stuffing.frm.i := by decide

theorem witness_StepRunsTheDecodedInstruction :
    (∃ w i, ({ State.reset with inputs := [.word w] } : State).inputs = [.word w] ∧ decode w = .ok i ∧ i.isOp = true) ∧
    (∃ i, (decoding [0x00]).inputs = [] ∧ (decoding [0x00]).nextElement = some i) ∧
    (receiving []).nextElement = none ∧ State.reset.inputs = [] :=
  ⟨⟨.start 7 Operands.none, _, rfl, rfl, rfl⟩, ⟨_, rfl, rfl⟩, rfl, rfl⟩

theorem witness_StepRunsTheDecodedInstruction_arrival :
    decode (.line .code [0x02]) = .ok (.cobsCodeShort 0x02) ∧ (decoding [0x00]).readsOwnElements = true ∧
    (decoding [0x00]).rxGone = false ∧ (decoding [0x00]).pendingRead = none ∧
    (decoding [0x00]).loseTransport.readsOwnElements = true ∧ (decoding [0x00]).loseTransport.rxGone = true :=
  ⟨rfl, rfl, rfl, rfl, rfl, rfl⟩

theorem witness_StepRunsTheDecodedInstruction_rewrite :
    stuffing.op = some (.encodeAndSend 0x64 [0xFF]) ∧
    ∀ command payload, (receiving []).op ≠ some (.encodeAndSend command payload) :=
  ⟨rfl, by simp [receiving]⟩

theorem witness_FunctionAndStepMachineAgree :
    Instr.sendResetSequence.isOp = true ∧ ∃ t, exec .sendResetSequence State.reset = .next t := ⟨rfl, _, rfl⟩

theorem witness_BlockResetKeepsTransport :
    ({ receiving [0x64] with inputs := [.reset] } : State).inputs = .reset :: [] := rfl

/-- A receive operation that waits with a byte in its buffer meets the invariant. -/
theorem witness_StepKeepsInv : (receiving [0x64]).inv = true ∧ ∃ t, step (receiving [0x64]) = .next t :=
  ⟨by decide, _, rfl⟩

/-- A send whose payload the caller has rewritten still meets the invariant, but its CRC is no longer the payload's. -/
theorem witness_StepKeepsInv_steady :
    stuffing.inv = true ∧ stuffing.payloadSteady = true ∧ (∀ index b rest, stuffing.inputs ≠ .rewrite index b :: rest) ∧
    (∃ t, step stuffing = .next t) ∧ (stuffing.rewritePayload 0 0x11).inv = true ∧
    (stuffing.rewritePayload 0 0x11).payloadSteady = false :=
  ⟨by decide, by decide, by simp [stuffing, State.reset], ⟨_, rfl⟩, by decide, by decide⟩

theorem witness_NoFaultUnderInv : (decoding [0x02, 0x11]).inv = true ∧ stuffing.inv = true ∧ checking.inv = true := by decide

theorem witness_TxOnlyGrows : ∃ t, step (receiving []) = .next t := ⟨_, rfl⟩

end Sys2Proof.Tests
end

section
/-! PROOFS. The CRC-8 generator: the round and the byte step (R110, R111). -/

namespace Sys2Proof.Machine

/-- Bit 7, which the round tests before the shift (R110), is set exactly in the upper half of the bytes. -/
theorem getLsbD_seven_iff (a : Byte) : a.getLsbD 7 = true ↔ 128 ≤ a.toNat := by
  have hmsb : a.getLsbD 7 = decide (128 ≤ a.toNat) := BitVec.msb_eq_decide a
  rw [hmsb, decide_eq_true_eq]

/-- The shift is an 8-bit one: it doubles and drops the old bit 7 (R110). -/
theorem toNat_shiftLeft_one (a : Byte) : (a <<< 1).toNat = 2 * a.toNat % 256 := by
  rw [BitVec.toNat_shiftLeft, Nat.shiftLeft_eq]
  omega

theorem crcRound_of_high {a : Byte} (h : 128 ≤ a.toNat) : crcRound a = (a <<< 1) ^^^ Config.crcPoly :=
  if_pos ((getLsbD_seven_iff a).2 h)

theorem crcRound_of_low {a : Byte} (h : ¬ 128 ≤ a.toNat) : crcRound a = a <<< 1 :=
  if_neg (mt (getLsbD_seven_iff a).1 h)

/-- The round on the value of the byte: below 128 the doubling loses nothing. -/
theorem crcRound_toNat (a : Byte) : (crcRound a).toNat =
    if 128 ≤ a.toNat then (2 * a.toNat % 256) ^^^ 0x4D else 2 * a.toNat := by
  split
  next h => rw [crcRound_of_high h, BitVec.toNat_xor, toNat_shiftLeft_one]; rfl
  next h => rw [crcRound_of_low h, toNat_shiftLeft_one]; omega

theorem crcByte_eq_iterate (a b : Byte) : crcByte a b = Nat.iterate crcRound 8 (a ^^^ b) := rfl

/-- Settles O7: the round by the two cases of bit 7, the byte step by its definition; the worked examples are computed. -/
theorem crcRoundAndByteStep : Obligations.CrcRoundAndByteStep :=
  ⟨crcRound_toNat, crcByte_eq_iterate, by decide⟩

end Sys2Proof.Machine
end

section
/-! PROOFS. Outcomes and failures (R234, R245): the five operations that cannot fail, and what a failing step leaves. -/

namespace Sys2Proof.Machine

/-! ### The operations that cannot fail (R234) -/

/-- The operations of R234. -/
def CannotFail (i : Instr) : Prop :=
  (∃ p, i = .calcCrc p) ∨ (∃ input out, i = .stuff input out) ∨ (∃ c p, i = .encodeAndSend c p) ∨
    (∃ c, i = .sendAck c) ∨ i = .sendResetSequence

/-- Once it is not refused, an operation of R234 does nothing but end with success. -/
theorem exec_of_cannotFail {i : Instr} (hi : CannotFail i) (s : State) :
    ∃ (u : UnitName) (r : Result) (s' : State), exec i s = unlessRefused i s (.next (s'.endOk u r)) := by
  rcases hi with ⟨p, rfl⟩ | ⟨input, out, rfl⟩ | ⟨c, p, rfl⟩ | ⟨c, rfl⟩ | rfl <;> exact ⟨_, _, _, rfl⟩

theorem ok_of_exec_cannotFail {i : Instr} {s t : State} (hi : CannotFail i) (h : exec i s = .next t) :
    t.ok = true := by
  obtain ⟨u, r, s', hx⟩ := exec_of_cannotFail hi s
  obtain ⟨-, ht⟩ := unlessRefused_eq_next.mp (hx.symm.trans h)
  cases ht
  exact State.endOk_ok u r s'

/-- Settles O40: in an idle block with good operands nothing is refused, and each of the five ends by `endOk`. -/
theorem fiveOperationsCannotFail : Obligations.FiveOperationsCannotFail := by
  intro i s hi hs ho
  obtain ⟨u, r, s', hx⟩ := exec_of_cannotFail hi s
  exact ⟨s'.endOk u r, hx.trans (unlessRefused_of_idle hs ho),
    State.endOk_op u r s', State.endOk_ok u r s', State.endOk_err u r s'⟩

/-! ### Silent failure (R243, R245) -/

/-- If `t` is the end of a failed operation, nothing has been written to TX since `s`, there is no result, and `err` names
a kind. -/
def FailsSilently (s t : State) : Prop :=
  t.op = none → t.ok = false → t.tx = s.tx ∧ t.result = .nothing ∧ t.err ≠ .none

theorem failsSilently_of_running {s t : State} (h : t.op ≠ none) : FailsSilently s t :=
  fun ht => absurd ht h

theorem failsSilently_of_ok {s t : State} (h : t.ok = true) : FailsSilently s t :=
  fun _ hf => absurd (h.symm.trans hf) (by decide)

theorem failsSilently_endOk (s s' : State) (u : UnitName) (r : Result) : FailsSilently s (s'.endOk u r) :=
  failsSilently_of_ok (State.endOk_ok u r s')

theorem failsSilently_raiseFailure (s : State) (u : UnitName) {k : ErrKind} (d : Diag) (hk : k ≠ .none) :
    FailsSilently s (s.raiseFailure u k d) :=
  fun _ _ => ⟨State.raiseFailure_tx u k d s, State.raiseFailure_result u k d s, by simpa using hk⟩

/-! ### What a received frame is decoded to -/

theorem checkDecoded_error_kind {d : Bytes} {k : ErrKind} {g : Diag} (h : checkDecoded d = .error (k, g)) :
    k ≠ .none := by
  unfold checkDecoded at h
  split at h
  · cases h; decide
  · split at h
    · cases h
    · cases h; decide

/-- Every failure of the decoding has a kind (R202, R196 to R198, R231). -/
theorem deframe_error_kind {buf : Bytes} {k : ErrKind} {g : Diag} (h : deframe buf = .error (k, g)) : k ≠ .none := by
  unfold deframe at h
  split at h
  · cases h; decide
  · cases h
  · split at h
    · cases h; decide
    next d _ =>
      cases hc : checkDecoded d with
      | ok payload => rw [hc] at h; cases h
      | error e =>
        rw [hc] at h
        cases h
        exact checkDecoded_error_kind hc

theorem conclude_failsSilently (reader : FrameReader) (c : Byte) (p : Bytes) (s : State) :
    FailsSilently s (conclude reader c p s) := by
  unfold conclude
  split
  case h_1 => exact failsSilently_endOk s s _ _
  case h_2 =>
    split
    · exact failsSilently_raiseFailure s _ _ (by decide)
    · split
      · exact failsSilently_raiseFailure s _ _ (by decide)
      · exact failsSilently_endOk s s _ _

theorem concludeBuffer_failsSilently (rd : Reader) (buf : Bytes) (s : State) :
    FailsSilently s (concludeBuffer rd buf s) := by
  cases rd with
  | sequence seq => exact failsSilently_endOk s s _ _
  | frame reader =>
    unfold concludeBuffer
    cases hd : deframe buf with
    | error e => exact failsSilently_raiseFailure s _ _ (deframe_error_kind hd)
    | ok packet => exact conclude_failsSilently reader _ _ s

theorem checkCrcByte_failsSilently (reader : FrameReader) (crc : Byte) (s : State) :
    FailsSilently s (checkCrcByte reader crc s) := by
  unfold checkCrcByte
  split
  · exact conclude_failsSilently reader _ _ s
  · exact failsSilently_raiseFailure s _ _ (by decide)

theorem runReader_failsSilently {rd : Reader} {s t : State} (h : runReader rd s = .next t) : FailsSilently s t := by
  rcases runReader_eq_next h with
    ⟨buf, rest, -, rfl⟩ | ⟨len, rest, -, rfl⟩ | ⟨buf, -, -, rfl⟩ | ⟨buf, -, -, rfl⟩
  · exact concludeBuffer_failsSilently rd buf (s.withRx rest)
  · exact failsSilently_raiseFailure (s.withRx rest) _ _ (by decide)
  · exact failsSilently_raiseFailure (s.withRx []) _ _ (by decide)
  · exact failsSilently_of_running (by simp)

/-! ### Bytes that arrive

The first bytes of an element may end the operation and the others still arrive, so what is kept byte by byte is about a
fixed earlier state `s₀`: nothing written since, and no failure that is not silent. -/

theorem takeReceived_keeps_silent {s₀ s t : State} {rd : Reader} {b : Byte} (htx : s.tx = s₀.tx)
    (hs : FailsSilently s₀ s) (h : takeReceived rd b s = .next t) : t.tx = s₀.tx ∧ FailsSilently s₀ t := by
  rcases takeReceived_eq_next h with rfl | ⟨-, rfl⟩ | ⟨-, -, rfl⟩ | ⟨-, -, rfl⟩
  · exact ⟨by simpa using htx, fun _ _ => by simpa using htx⟩
  · exact ⟨htx, hs⟩
  · exact ⟨by simpa using htx, failsSilently_endOk s₀ s _ _⟩
  · exact ⟨htx, hs⟩

theorem arriveByte_keeps_silent {s₀ s t : State} {b : Byte} (htx : s.tx = s₀.tx)
    (hs : FailsSilently s₀ s) (h : arriveByte b s = .next t) : t.tx = s₀.tx ∧ FailsSilently s₀ t := by
  rcases arriveByte_cases b s with ⟨-, ha⟩ | ⟨-, ⟨rd, -, ha⟩⟩ | ⟨-, -, ha⟩ <;> rw [ha] at h
  · cases h; exact ⟨htx, hs⟩
  · exact takeReceived_keeps_silent htx hs h
  · cases h; exact ⟨htx, hs⟩

theorem arrive_keeps_silent {bs : Bytes} {s₀ s t : State} (htx : s.tx = s₀.tx)
    (hs : FailsSilently s₀ s) (h : arrive bs s = .next t) : FailsSilently s₀ t := by
  induction bs generalizing s with
  | nil => cases h; exact hs
  | cons b bs ih =>
    obtain ⟨u, hu, ht⟩ := Out.andThen_eq_next.mp h
    obtain ⟨hutx, hus⟩ := arriveByte_keeps_silent htx hs hu
    exact ih hutx hus ht

theorem arrive_failsSilently {bs : Bytes} {s t : State} (hs : s.op ≠ none) (h : arrive bs s = .next t) :
    FailsSilently s t :=
  arrive_keeps_silent rfl (failsSilently_of_running hs) h

/-! ### Operations and wire elements under `exec` -/

/-- A whole operation: those of R234 do not fail, `unstuff` and the readers raise their failures before any write. -/
theorem exec_op_failsSilently {i : Instr} {s t : State} (hi : i.isOp = true) (h : exec i s = .next t) :
    FailsSilently s t := by
  have sure : CannotFail i → FailsSilently s t := fun hc => failsSilently_of_ok (ok_of_exec_cannotFail hc h)
  cases i with
  | calcCrc p => exact sure (.inl ⟨p, rfl⟩)
  | stuff input out => exact sure (.inr (.inl ⟨input, out, rfl⟩))
  | encodeAndSend c p => exact sure (.inr (.inr (.inl ⟨c, p, rfl⟩)))
  | sendAck c => exact sure (.inr (.inr (.inr (.inl ⟨c, rfl⟩))))
  | sendResetSequence => exact sure (.inr (.inr (.inr (.inr rfl))))
  | unstuff input out =>
    have hrun := (unlessRefused_eq_next.mp h).2
    split at hrun
    · cases hrun; exact failsSilently_endOk s s _ _
    · cases hrun; exact failsSilently_raiseFailure s _ _ (by decide)
  | receiveAndDecode => exact runReader_failsSilently (unlessRefused_eq_next.mp h).2
  | waitAck expected => exact runReader_failsSilently (unlessRefused_eq_next.mp h).2
  | readUntilSequence seq => exact runReader_failsSilently (unlessRefused_eq_next.mp h).2
  | reservedOpsel code => cases h
  | _ => cases hi

theorem applyDecStep_failsSilently {home : DecHome} {st : DecStep} {s t : State} (hs : s.op ≠ none)
    (h : applyDecStep home st s = .next t) : FailsSilently s t := by
  cases st with
  | go d => cases h; exact failsSilently_of_running (by simpa using hs)
  | bad r => cases h; exact failsSilently_raiseFailure s _ _ (by decide)
  | outOfPlace => cases h

theorem takeCode_failsSilently {code : Byte} {s t : State} (hs : s.op ≠ none) (h : takeCode code s = .next t) :
    FailsSilently s t := by
  unfold takeCode at h
  split at h
  · exact applyDecStep_failsSilently hs h
  · exact arrive_failsSilently hs h

theorem execCobsBlock_failsSilently {code : Byte} {data : Bytes} {s t : State} (hs : s.op ≠ none)
    (h : execCobsBlock code data s = .next t) : FailsSilently s t := by
  unfold execCobsBlock at h
  split at h
  · exact applyDecStep_failsSilently hs h
  · exact arrive_failsSilently hs h

theorem execCobsData_failsSilently {data : Byte} {s t : State} (hs : s.op ≠ none)
    (h : execCobsData data s = .next t) : FailsSilently s t := by
  unfold execCobsData at h
  split at h
  · exact applyDecStep_failsSilently hs h
  · exact arrive_failsSilently hs h

/-- The CRC byte is stuffed by the framer, compared by the deframer, or a byte of the line (R89, R172, R198). -/
theorem execCrcByte_eq_next {crc : Byte} {s t : State} (h : execCrcByte crc s = .next t) :
    (∃ f, t = { s with frm := f }) ∨ (∃ reader, t = checkCrcByte reader crc s) ∨
    arrive (crcOnLine crc) s = .next t := by
  unfold execCrcByte at h
  split at h
  case h_1 =>
    split at h
    · cases h; exact .inl ⟨_, rfl⟩
    · exact .inr (.inr h)
  case h_2 reader _ =>
    split at h
    · cases h; exact .inr (.inl ⟨reader, rfl⟩)
    · split at h
      · cases h
      · exact .inr (.inr h)
  all_goals exact .inr (.inr h)

theorem execCrcByte_failsSilently {crc : Byte} {s t : State} (hs : s.op ≠ none)
    (h : execCrcByte crc s = .next t) : FailsSilently s t := by
  rcases execCrcByte_eq_next h with ⟨f, rfl⟩ | ⟨reader, rfl⟩ | ha
  · exact failsSilently_of_running hs
  · exact checkCrcByte_failsSilently reader crc s
  · exact arrive_failsSilently hs ha

theorem exec_failsSilently_of_running {i : Instr} {s t : State} (hs : s.op ≠ none) (h : exec i s = .next t) :
    FailsSilently s t := by
  cases i with
  | frameE c => exact arrive_failsSilently hs h
  | frameP c region => exact arrive_failsSilently hs h
  | frameCommand c => exact arrive_failsSilently hs h
  | frameDelim => exact arrive_failsSilently hs h
  | cobsBlock code data => exact execCobsBlock_failsSilently hs h
  | cobsCodeShort code => exact takeCode_failsSilently hs h
  | cobsCodeFull => exact takeCode_failsSilently hs h
  | cobsCodeZero => exact takeCode_failsSilently hs h
  | cobsData data => exact execCobsData_failsSilently hs h
  | crcByte crc => exact execCrcByte_failsSilently hs h
  | resetSequence => exact arrive_failsSilently hs h
  | _ => exact exec_op_failsSilently rfl h

/-! ### The units' own steps -/

theorem tickStuffPhase_op {payload : Bytes} {s t : State} (h : tickStuffPhase payload s = .next t) : t.op = s.op := by
  unfold tickStuffPhase at h
  split at h
  · cases h; rfl
  · split at h
    · split at h <;> cases h <;> rfl
    · cases h; rfl
    · cases h; rfl

/-- The framer, which alone writes to TX, goes on or ends with success (R175). -/
theorem tickFramer_op_or_ok {c : Byte} {payload : Bytes} {s t : State} (h : tickFramer c payload s = .next t) :
    t.op = s.op ∨ t.ok = true := by
  unfold tickFramer at h
  split at h
  case h_1 => cases h
  case h_2 => cases h
  case h_3 => split at h <;> cases h <;> exact .inl rfl
  case h_4 => split at h <;> cases h <;> exact .inl rfl
  case h_5 => exact .inl (tickStuffPhase_op h)
  case h_6 => cases h; exact .inr rfl

theorem tickResync_op_or_ok {s t : State} (h : tickResync s = .next t) : t.op = s.op ∨ t.ok = true := by
  unfold tickResync at h
  split at h
  case h_1 =>
    split at h
    · cases h; exact .inl rfl
    · cases h; exact .inr rfl
    · cases h
  all_goals cases h

theorem tickCalcCrc_op_or_ok {payload : Bytes} {s t : State} (h : tickCalcCrc payload s = .next t) :
    t.op = s.op ∨ t.ok = true := by
  unfold tickCalcCrc at h
  split at h
  · cases h
  · split at h <;> cases h
    · exact .inl rfl
    · exact .inr rfl

theorem tickStuff_op_or_ok {input : Bytes} {s t : State} (h : tickStuff input s = .next t) :
    t.op = s.op ∨ t.ok = true := by
  unfold tickStuff at h
  split at h
  · cases h
  · split at h <;> cases h <;> exact .inl rfl
  · cases h; exact .inr rfl

theorem tickUnstuff_ok {s t : State} (h : tickUnstuff s = .next t) : t.ok = true := by
  unfold tickUnstuff at h
  split at h <;> cases h
  rfl

theorem tickRecv_failsSilently {rd : Reader} {s t : State} (hs : s.op ≠ none) (h : tickRecv rd s = .next t) :
    FailsSilently s t := by
  unfold tickRecv at h
  split at h
  next b rest _ =>
    exact (takeReceived_keeps_silent (s₀ := s) (State.withRx_tx rest s) (failsSilently_of_running hs) h).2
  next => cases h; exact failsSilently_of_running hs
  next => cases h; exact failsSilently_raiseFailure s _ _ (by decide)

theorem tickSplit_failsSilently {reader : FrameReader} {s t : State} (hs : s.op ≠ none)
    (h : tickSplit reader s = .next t) : FailsSilently s t := by
  unfold tickSplit at h
  split at h
  · cases h
  · split at h <;> cases h
    · exact failsSilently_raiseFailure s _ _ (by decide)
    · exact conclude_failsSilently reader _ _ s
    · exact failsSilently_of_running hs

theorem tickUnstuffEnd_failsSilently {s t : State} (hs : s.op ≠ none) (h : tickUnstuffEnd s = .next t) :
    FailsSilently s t := by
  unfold tickUnstuffEnd at h
  split at h
  · cases h
  · split at h <;> cases h
    · exact failsSilently_raiseFailure s _ _ (by decide)
    · exact failsSilently_of_running hs

theorem tickCheck_failsSilently {reader : FrameReader} {s t : State} (hs : s.op ≠ none)
    (h : tickCheck reader s = .next t) : FailsSilently s t := by
  unfold tickCheck at h
  split at h
  · cases h; exact failsSilently_of_running hs
  · split at h <;> cases h
    exact checkCrcByte_failsSilently reader _ s

theorem tickDeframer_failsSilently {rd : Reader} {s t : State} (hs : s.op ≠ none) (h : tickDeframer rd s = .next t) :
    FailsSilently s t := by
  unfold tickDeframer at h
  split at h
  case h_1 => exact tickRecv_failsSilently hs h
  case h_2 => exact tickSplit_failsSilently hs h
  case h_3 => exact tickUnstuffEnd_failsSilently hs h
  case h_4 => exact tickCheck_failsSilently hs h
  all_goals cases h

theorem tick_failsSilently {s t : State} (hs : s.op ≠ none) (h : tick s = .next t) : FailsSilently s t := by
  have goes : t.op = s.op ∨ t.ok = true → FailsSilently s t := fun hg =>
    hg.elim (fun ho => failsSilently_of_running (by rwa [ho])) failsSilently_of_ok
  unfold tick at h
  split at h
  next hn => exact absurd hn hs
  next =>
    split at h
    · exact goes (tickCalcCrc_op_or_ok h)
    · exact goes (tickStuff_op_or_ok h)
    · exact failsSilently_of_ok (tickUnstuff_ok h)
    · exact goes (tickFramer_op_or_ok h)
    · exact goes (tickResync_op_or_ok h)
    · exact tickDeframer_failsSilently hs h
    · cases h

/-! ### A step -/

theorem advance_failsSilently {s t : State} (hs : s.op ≠ none) (h : advance s = .next t) : FailsSilently s t := by
  unfold advance at h
  split at h
  · exact exec_failsSilently_of_running hs h
  · exact tick_failsSilently hs h

theorem runWord_failsSilently {w : InputWord} {s t : State} (hs : s.op ≠ none) (h : runWord w s = .next t) :
    FailsSilently s t := by
  unfold runWord at h
  split at h
  · cases h
  · split at h
    · exact arrive_failsSilently hs h
    · exact exec_failsSilently_of_running hs h

/-- Of the inputs a busy block takes, only its own step and a word can end its operation without a reset (R67, R261). -/
theorem step_failsSilently {s t : State} (hs : s.op ≠ none) (h : step s = .next t) : FailsSilently s t := by
  unfold step at h
  split at h
  case h_1 => exact advance_failsSilently hs h
  case h_2 rest _ => exact advance_failsSilently (s := { s with inputs := rest }) hs h
  case h_3 w rest _ => exact runWord_failsSilently (s := { s with inputs := rest }) hs h
  case h_4 opsel operands rest _ =>
    have hbusy : begin (decodeStart opsel operands) { s with inputs := rest } = .refused .startWhileBusy :=
      unlessRefused_of_busy hs
    rw [hbusy] at h
    cases h
  case h_5 => cases h; exact failsSilently_of_running (by simpa using hs)
  case h_6 => cases h; exact failsSilently_of_running hs
  case h_7 => cases h; exact failsSilently_of_ok rfl

/-- Settles O41: every failure goes through `raiseFailure`, on a path that writes nothing; the framer, which writes, never
fails. -/
theorem failureWritesNothing : Obligations.FailureWritesNothing :=
  ⟨fun _ _ _ hi h => exec_op_failsSilently hi h, fun _ _ hs h => step_failsSilently hs h⟩

end Sys2Proof.Machine
end

section
/-! PROOFS. The encodings: decoder and encoder are inverse to each other (R96, R97), and what a decoded element of the line
is on the line. -/

namespace Sys2Proof

/-- No delimiter, on the members. -/
theorem noDelim_iff {bs : Bytes} : noDelim bs = true ↔ (0x00 : Byte) ∉ bs := by
  simp only [noDelim, List.all_eq_true, bne_iff_ne, Config.delim]
  exact ⟨fun h hm => h _ hm rfl, fun h b hb hz => h (hz ▸ hb)⟩

@[simp] theorem noDelim_nil : noDelim [] = true := rfl

@[simp] theorem noDelim_append (as bs : Bytes) : noDelim (as ++ bs) = (noDelim as && noDelim bs) := by
  simp [noDelim, List.all_append]

@[simp] theorem noDelim_cons (b : Byte) (bs : Bytes) : noDelim (b :: bs) = (b != 0x00 && noDelim bs) := rfl

/-! ### The encoding of an instruction decodes to it -/

theorem decodeStart_reserved {code : BitVec 4} (h : 9 ≤ code.toNat) (o : Operands) :
    decodeStart code o = .reservedOpsel code := by
  unfold decodeStart
  split
  case h_10 => rfl
  all_goals omega

theorem decodeFrame_encoded {command : Byte} {region : Bytes} (hne : region ≠ []) (hnd : noDelim region = true) :
    decodeFrame (command :: region ++ [Config.delim]) = .ok (.frameP command region) := by
  simp [decodeFrame, hne, hnd]

theorem decodeBlock_encoded {code : Byte} {data : Bytes} (hlen : data.length + 1 = code.toNat)
    (hnd : noDelim data = true) : decodeBlock (code :: data) = .ok (.cobsBlock code data) := by
  have hcode : code ≠ 0 := by
    rintro rfl
    simp at hlen
  simp only [decodeBlock, Config.delim, if_neg hcode, hlen, hnd, ne_eq, not_true_eq_false, if_false, if_true]

theorem decodeCode_short {code : Byte} (h1 : 1 ≤ code.toNat) (h2 : code.toNat ≤ 254) :
    decodeCode code = .cobsCodeShort code := by
  have h0 : code ≠ 0 := by
    rintro rfl
    simp at h1
  have h255 : code ≠ 255 := by
    rintro rfl
    simp at h2
  rw [decodeCode, if_neg h0, if_neg h255]

/-- Settles O1: the decoder undoes the encoder constructor by constructor; the checks of `wf` are those it makes. -/
theorem encodedInstructionDecodesBack : Obligations.EncodedInstructionDecodesBack := by
  intro i hwf
  cases i with
  | reservedOpsel code => exact congrArg Except.ok (decodeStart_reserved (by simpa [Instr.wf] using hwf) _)
  | frameP command region =>
    obtain ⟨hne, hnd⟩ : region ≠ [] ∧ noDelim region = true := by simpa [Instr.wf] using hwf
    exact decodeFrame_encoded hne hnd
  | cobsBlock code data =>
    obtain ⟨hlen, hnd⟩ : data.length + 1 = code.toNat ∧ noDelim data = true := by simpa [Instr.wf] using hwf
    exact decodeBlock_encoded hlen hnd
  | cobsCodeShort code =>
    obtain ⟨h1, h2⟩ : 1 ≤ code.toNat ∧ code.toNat ≤ 254 := by simpa [Instr.wf] using hwf
    exact congrArg Except.ok (decodeCode_short h1 h2)
  | cobsData data =>
    have hne : data ≠ Config.delim := by simpa [Instr.wf] using hwf
    exact if_neg hne
  | _ => rfl

/-! ### What decodes is the encoding of its instruction -/

/-- The instruction is a well-formed wire element, and it is encoded as these bytes at this position. -/
def EncodesTo (i : Instr) (pos : LinePos) (bytes : Bytes) : Prop :=
  i.wf = true ∧ i.isOp = false ∧ encode i = .line pos bytes

theorem oneByte_eq_ok {bytes : Bytes} {b : Byte} (h : oneByte bytes = .ok b) : bytes = [b] := by
  unfold oneByte at h
  split at h <;> cases h
  rfl

/-- A one-byte element that decodes has one byte, of which its instruction is made. -/
theorem oneByte_bind_eq_ok {bytes : Bytes} {i : Instr} {f : Byte → Except Reject Instr}
    (h : (oneByte bytes).bind f = .ok i) : ∃ b, bytes = [b] ∧ f b = .ok i := by
  cases hb : oneByte bytes with
  | error e => rw [hb] at h; cases h
  | ok b => rw [hb] at h; exact ⟨b, oneByte_eq_ok hb, h⟩

theorem oneByte_map_eq_ok {bytes : Bytes} {i : Instr} {f : Byte → Instr}
    (h : (oneByte bytes).map f = .ok i) : ∃ b, bytes = [b] ∧ i = f b := by
  cases hb : oneByte bytes with
  | error e => rw [hb] at h; cases h
  | ok b => rw [hb] at h; cases h; exact ⟨b, oneByte_eq_ok hb, rfl⟩

theorem decodeFrame_encodesTo {bytes : Bytes} {i : Instr} (h : decodeFrame bytes = .ok i) :
    EncodesTo i .frame bytes := by
  cases bytes with
  | nil => cases h
  | cons c rest =>
    simp only [decodeFrame] at h
    split at h
    · cases h
    next hlast =>
      have hrest : rest = rest.dropLast ++ [Config.delim] := by
        obtain ⟨init, rfl⟩ := List.getLast?_eq_some_iff.mp (not_not.mp hlast)
        simp
      split at h
      next hempty =>
        cases h
        rw [List.isEmpty_iff.mp hempty] at hrest
        exact ⟨rfl, rfl, by rw [hrest]; rfl⟩
      next hempty =>
        split at h
        next hnd =>
          cases h
          exact ⟨by simpa [Instr.wf, hnd] using hempty, rfl, by simp [encode, ← hrest]⟩
        · cases h

theorem decodeBlock_encodesTo {bytes : Bytes} {i : Instr} (h : decodeBlock bytes = .ok i) :
    EncodesTo i .block bytes := by
  cases bytes with
  | nil => cases h
  | cons c data =>
    simp only [decodeBlock] at h
    split at h
    · cases h
    · split at h
      · cases h
      next hlen =>
        split at h
        next hnd =>
          cases h
          exact ⟨by simpa [Instr.wf, hnd] using hlen, rfl, rfl⟩
        · cases h

theorem decodeCode_encodesTo (n : Byte) : EncodesTo (decodeCode n) .code [n] := by
  unfold decodeCode
  split
  next h => exact ⟨rfl, rfl, by rw [h]; rfl⟩
  next h0 =>
    split
    next h => exact ⟨rfl, rfl, by rw [h]; rfl⟩
    next h255 =>
      refine ⟨?_, rfl, rfl⟩
      simp only [Instr.wf, Bool.and_eq_true, decide_eq_true_eq]
      bv_omega

/-- Settles O2: position by position; every check the decoder makes is one of `wf`. -/
theorem decodedLineWordEncodesBack : Obligations.DecodedLineWordEncodesBack := by
  intro pos bytes i h
  change decodeLine pos bytes = .ok i at h
  change EncodesTo i pos bytes
  cases pos with
  | frame => exact decodeFrame_encodesTo h
  | block => exact decodeBlock_encodesTo h
  | command => obtain ⟨b, rfl, rfl⟩ := oneByte_map_eq_ok h; exact ⟨rfl, rfl, rfl⟩
  | crc => obtain ⟨b, rfl, rfl⟩ := oneByte_map_eq_ok h; exact ⟨rfl, rfl, rfl⟩
  | code => obtain ⟨b, rfl, rfl⟩ := oneByte_map_eq_ok h; exact decodeCode_encodesTo b
  | delim =>
    obtain ⟨b, rfl, hb⟩ := oneByte_bind_eq_ok h
    split at hb <;> cases hb
    next hz => exact ⟨rfl, rfl, by rw [hz]; rfl⟩
  | data =>
    obtain ⟨b, rfl, hb⟩ := oneByte_bind_eq_ok h
    split at hb <;> cases hb
    next hz => exact ⟨by simpa [Instr.wf] using hz, rfl, rfl⟩
  | resync =>
    simp only [decodeLine] at h
    split at h <;> cases h
    next hb => exact ⟨rfl, rfl, by rw [hb]; rfl⟩

/-- Settles O3: the words written out from the spec, by evaluation. -/
theorem listedWordsDecode : Obligations.ListedWordsDecode :=
  ⟨fun _ => ⟨rfl, rfl, rfl, rfl, rfl, rfl, rfl, rfl, rfl⟩, rfl, rfl, rfl, rfl, rfl, rfl, rfl, rfl⟩

/-- Settles O4: the codes from 9 on are the last case of the decoder, and its instruction has one meaning in every state. -/
theorem reservedSelectCodesAreRefused : Obligations.ReservedSelectCodesAreRefused :=
  fun _ o _ hcode => ⟨congrArg Except.ok (decodeStart_reserved hcode o), rfl⟩

end Sys2Proof
end

section
/-! PROOFS. Starting an operation (R67, D6, D12, D16, D20), and the two ways an operation ends seen from an idle block. -/

namespace Sys2Proof.Machine

/-! ### The end of an operation that was run as a function: the block was idle and is idle again -/

theorem State.endOk_crc_of_idle {s : State} (hs : s.op = none) (r : Result) :
    s.endOk .crc r = { s with crc := CrcRegs.reset, ok := true, err := .none, diag := .none, result := r } := by
  obtain ⟨⟩ := s; subst hs; rfl

theorem State.endOk_enc_of_idle {s : State} (hs : s.op = none) (r : Result) :
    s.endOk .enc r = { s with enc := EncRegs.reset, ok := true, err := .none, diag := .none, result := r } := by
  obtain ⟨⟩ := s; subst hs; rfl

theorem State.endOk_dec_of_idle {s : State} (hs : s.op = none) (r : Result) :
    s.endOk .dec r = { s with dec := DecRegs.reset, ok := true, err := .none, diag := .none, result := r } := by
  obtain ⟨⟩ := s; subst hs; rfl

theorem State.endOk_framer_of_idle {s : State} (hs : s.op = none) (r : Result) :
    s.endOk .framer r = { s with frm := FramerRegs.reset, ok := true, err := .none, diag := .none, result := r } := by
  obtain ⟨⟩ := s; subst hs; rfl

theorem State.endOk_deframer_of_idle {s : State} (hs : s.op = none) (r : Result) :
    s.endOk .deframer r =
      { s with dfr := DeframerRegs.reset, ok := true, err := .none, diag := .none, result := r } := by
  obtain ⟨⟩ := s; subst hs; rfl

theorem State.raiseFailure_dec_of_idle {s : State} (hs : s.op = none) (k : ErrKind) (d : Diag) :
    s.raiseFailure .dec k d =
      { s with dec := DecRegs.reset, ok := false, err := k, diag := d, result := .nothing } := by
  obtain ⟨⟩ := s; subst hs; rfl

theorem State.raiseFailure_deframer_of_idle {s : State} (hs : s.op = none) (k : ErrKind) (d : Diag) :
    s.raiseFailure .deframer k d =
      { s with dfr := DeframerRegs.reset, ok := false, err := k, diag := d, result := .nothing } := by
  obtain ⟨⟩ := s; subst hs; rfl

/-! ### Refused starts -/

/-- A start with refused operands in an idle block answers their refusal. -/
theorem unlessRefused_of_badOperands {i : Instr} {s : State} {run : Out} {r : Refusal} (hs : s.op = none)
    (ho : operandRefusal s.params i = some r) : unlessRefused i s run = .refused r := by
  simp [unlessRefused, startRefusal, State.busy, hs, ho]

/-- The meaning of every operation but a reserved code stands behind the check of its start (R67). -/
theorem exec_guarded {i : Instr} (hi : i.isOp = true) (hr : ∀ code, i ≠ .reservedOpsel code) (s : State) :
    ∃ run, exec i s = unlessRefused i s run := by
  cases i with
  | reservedOpsel code => exact absurd rfl (hr code)
  | calcCrc | stuff | unstuff | encodeAndSend | receiveAndDecode | sendAck | waitAck | sendResetSequence
  | readUntilSequence => exact ⟨_, rfl⟩
  | _ => cases hi

/-- An operation that answers a next state was started in an idle block, with operands that are not refused. -/
theorem op_eq_none_of_exec {i : Instr} {s t : State} (hi : i.isOp = true) (h : exec i s = .next t) :
    s.op = none ∧ operandRefusal s.params i = none := by
  by_cases hr : ∃ code, i = .reservedOpsel code
  · obtain ⟨code, rfl⟩ := hr; cases h
  · obtain ⟨run, hx⟩ := exec_guarded hi (not_exists.mp hr) s
    exact startRefusal_eq_none.mp (unlessRefused_eq_next.mp (hx.symm.trans h)).1

/-- Settles O5: the check of the start comes first in both views. -/
theorem startWhileBusyIsRefused : Obligations.StartWhileBusyIsRefused := by
  intro i s hi hr hs
  obtain ⟨run, hx⟩ := exec_guarded hi hr s
  exact ⟨hx.trans (unlessRefused_of_busy hs), unlessRefused_of_busy hs⟩

/-! ### The operand rules -/

theorem lengthRefusal_of_fits {p : Config.Params} {bs : Bytes} (h : fitsLenW p bs.length = true) :
    lengthRefusal p bs = none := by
  simp [lengthRefusal, h]

theorem lengthRefusal_of_long {p : Config.Params} {w : Nat} {bs : Bytes} (hw : p.lenW = some w)
    (h : 2 ^ w ≤ bs.length) : lengthRefusal p bs = some .operandTooLong := by
  simp [lengthRefusal, fitsLenW, hw, h]

theorem bufferRefusal_of_overlap {out : OutBuf} (h : out.overlapsInput = true) (n : Nat) :
    bufferRefusal out n = some .overlappingBuffers := by
  simp [bufferRefusal, h]

theorem bufferRefusal_of_small {out : OutBuf} {cap n : Nat} (ho : out.overlapsInput = false)
    (hc : out.cap = some cap) (h : cap < n) : bufferRefusal out n = some .capTooSmall := by
  simp [bufferRefusal, ho, capHolds, hc, h]

theorem bufferRefusal_of_room {out : OutBuf} {n : Nat} (ho : out.overlapsInput = false)
    (hc : ∀ cap, out.cap = some cap → n ≤ cap) : bufferRefusal out n = none := by
  cases h : out.cap with
  | none => simp [bufferRefusal, ho, capHolds, h]
  | some cap => simp [bufferRefusal, ho, capHolds, h, hc cap h]

/-- Nothing is produced by an `unstuff` that fails, so a buffer that does not overlap is enough (log 13). -/
theorem bufferRefusal_zero {out : OutBuf} (ho : out.overlapsInput = false) : bufferRefusal out 0 = none :=
  bufferRefusal_of_room ho fun _ _ => Nat.zero_le _

/-- The operand rules of `unstuff` when the length is good: those of the buffer, for what is produced. -/
theorem operandRefusal_unstuff {p : Config.Params} {input : Bytes} (out : OutBuf)
    (hfit : fitsLenW p input.length = true) : ∃ n, operandRefusal p (.unstuff input out) = bufferRefusal out n ∧
      ∀ output, unstuff input = .ok output → n = output.length := by
  cases hu : unstuff input with
  | ok output => exact ⟨output.length, by simp [operandRefusal, lengthRefusal_of_fits hfit, hu], by simp⟩
  | error r => exact ⟨0, by simp [operandRefusal, lengthRefusal_of_fits hfit, hu], by simp⟩

/-- Settles O6: each refusal is the first rule of `operandRefusal` that the operands break. -/
theorem badOperandsAreRefused : Obligations.BadOperandsAreRefused := by
  intro s input command out hs
  have refused {i : Instr} {run : Out} {r : Refusal} (ho : operandRefusal s.params i = some r) :
      unlessRefused i s run = .refused r := unlessRefused_of_badOperands hs ho
  refine ⟨fun w hw hlen => ?_, fun hfit hover => ?_, fun cap hfit hover hcap => ⟨fun hrule hlen => ?_, ?_⟩, refused rfl⟩
  · have hlong := lengthRefusal_of_long hw hlen
    refine ⟨refused hlong, refused ?_, refused ?_, refused hlong, fun hne => refused ?_⟩
    · simp [operandRefusal, hlong]
    · simp [operandRefusal, hlong]
    · simp [operandRefusal, hlong, hne]
  · have hlap := bufferRefusal_of_overlap hover
    obtain ⟨n, hn, -⟩ := operandRefusal_unstuff out hfit
    refine ⟨refused ?_, refused (hn.trans (hlap n))⟩
    simp [operandRefusal, lengthRefusal_of_fits hfit, hlap]
  · refine refused ?_
    have hsmall : bufferRefusal out (stuffWith .literal input).length = some .capTooSmall :=
      bufferRefusal_of_small hover hcap hlen
    simp [operandRefusal, lengthRefusal_of_fits hfit, hrule, hsmall]
  · intro output hu hlen
    obtain ⟨n, hn, hlength⟩ := operandRefusal_unstuff out hfit
    obtain rfl := hlength output hu
    exact refused (hn.trans (bufferRefusal_of_small hover hcap hlen))

/-- Settles O8: `calc_crc` with an operand that fits is not refused and ends by `endOk`; the worked example is computed. -/
theorem calcCrcResult : Obligations.CalcCrcResult := by
  refine ⟨fun payload s hs hfit => ?_, rfl, by decide, by decide, by decide⟩
  calc exec (.calcCrc payload) s = .next (s.endOk .crc (.byte (calcCrc payload))) :=
        unlessRefused_of_idle hs (lengthRefusal_of_fits hfit)
    _ = _ := congrArg _ (State.endOk_crc_of_idle hs _)

end Sys2Proof.Machine
end

section
/-! PROOFS. The laws of the CRC (R119): the round is linear and one-to-one, and so is the byte step. -/

namespace Sys2Proof.Machine

/-! ### The round and the byte step -/

theorem xor_xor_xor_cancel (x y c : Byte) : (x ^^^ c) ^^^ (y ^^^ c) = x ^^^ y := by
  calc (x ^^^ c) ^^^ (y ^^^ c) = (x ^^^ y) ^^^ (c ^^^ c) := by ac_rfl
    _ = x ^^^ y := by simp

/-- The round is linear: the shift is, and the polynomial is added once, or twice, which cancels. -/
theorem crcRound_xor (a b : Byte) : crcRound (a ^^^ b) = crcRound a ^^^ crcRound b := by
  unfold crcRound
  rw [BitVec.getLsbD_xor, BitVec.shiftLeft_xor_distrib]
  cases a.getLsbD 7 <;> cases b.getLsbD 7
  case true.true => exact (xor_xor_xor_cancel _ _ _).symm
  all_goals simp <;> ac_rfl

/-- The round maps only zero to zero: the polynomial is odd, a doubling below 128 loses nothing. -/
theorem crcRound_eq_zero {a : Byte} (h : crcRound a = 0) : a = 0 := by
  have hn := congrArg BitVec.toNat h
  rw [crcRound_toNat] at hn
  split at hn
  next =>
    have hodd := congrArg (Nat.testBit · 0) hn
    simp at hodd
    omega
  next => exact BitVec.eq_of_toNat_eq (by simpa using hn)

@[simp] theorem crcByte_zero_zero : crcByte 0 0 = 0 := by decide

theorem crcByte_zero_xor (a b : Byte) : crcByte 0 (a ^^^ b) = crcByte 0 a ^^^ crcByte 0 b := by
  simp [crcByte, crcRound_xor]

/-- Table form: the step is the table at the xor of its operands. -/
theorem crcByte_eq_table (a b : Byte) : crcByte a b = crcByte 0 (a ^^^ b) := by
  simp [crcByte]

/-- The step is linear in both operands together. -/
theorem crcByte_xor_xor (a a' b b' : Byte) : crcByte (a ^^^ a') (b ^^^ b') = crcByte a b ^^^ crcByte a' b' := by
  rw [crcByte_eq_table a b, crcByte_eq_table a' b', ← crcByte_zero_xor, crcByte_eq_table]
  congr 1
  ac_rfl

theorem crcByte_zero_eq_zero {a : Byte} (h : crcByte 0 a = 0) : a = 0 := by
  rw [crcByte, show (0 : Byte) ^^^ a = a from BitVec.zero_xor] at h
  iterate 8 replace h := crcRound_eq_zero h
  exact h

/-- The table is one-to-one. -/
theorem crcByte_zero_injective {a b : Byte} (h : crcByte 0 a = crcByte 0 b) : a = b := by
  have hx : crcByte 0 (a ^^^ b) = 0 := by rw [crcByte_zero_xor, h]; exact BitVec.xor_self
  exact BitVec.xor_eq_zero_iff.mp (crcByte_zero_eq_zero hx)

/-- The step is one-to-one in the accumulator. -/
theorem crcByte_left_injective {a a' b : Byte} (h : crcByte a b = crcByte a' b) : a = a' := by
  rw [crcByte_eq_table, crcByte_eq_table a'] at h
  exact (BitVec.xor_left_inj b).mp (crcByte_zero_injective h)

/-- The step is one-to-one in the byte. -/
theorem crcByte_right_injective {a b b' : Byte} (h : crcByte a b = crcByte a b') : b = b' := by
  rw [crcByte_eq_table, crcByte_eq_table a b'] at h
  exact (BitVec.xor_right_inj a).mp (crcByte_zero_injective h)

/-- A byte leads to zero from the accumulator that equals it, and from no other (R119 (d)). -/
theorem crcByte_eq_zero_iff {a b : Byte} : crcByte a b = 0 ↔ a = b := by
  rw [crcByte_eq_table]
  refine ⟨fun h => BitVec.xor_eq_zero_iff.mp (crcByte_zero_eq_zero h), ?_⟩
  rintro rfl
  exact (congrArg (crcByte 0) BitVec.xor_self).trans crcByte_zero_zero

/-! ### The fold -/

theorem foldl_crcByte_xor (p q : Bytes) (a b : Byte) (h : p.length = q.length) :
    (List.zipWith (· ^^^ ·) p q).foldl crcByte (a ^^^ b) = p.foldl crcByte a ^^^ q.foldl crcByte b := by
  induction p generalizing q a b with
  | nil => cases q with
    | nil => rfl
    | cons y q => cases h
  | cons x p ih => cases q with
    | nil => cases h
    | cons y q =>
      simp only [List.zipWith_cons_cons, List.foldl_cons, crcByte_xor_xor]
      exact ih q _ _ (Nat.succ.inj h)

theorem foldl_crcByte_injective (p : Bytes) {a b : Byte} (h : p.foldl crcByte a = p.foldl crcByte b) : a = b := by
  induction p generalizing a b with
  | nil => exact h
  | cons x p ih => exact crcByte_left_injective (ih h)

theorem calcCrc_zero_cons (p : Bytes) : calcCrc (0 :: p) = calcCrc p :=
  congrArg (p.foldl crcByte ·) crcByte_zero_zero

theorem calcCrc_replicate_zero (n : Nat) : calcCrc (List.replicate n 0) = 0 := by
  induction n with
  | zero => rfl
  | succ n ih => rw [List.replicate_succ, calcCrc_zero_cons, ih]

/-- Settles O9: the laws of the byte step, carried through the fold. -/
theorem crcLaws : Obligations.CrcLaws :=
  ⟨crcByte_eq_table, fun _ _ => crcByte_zero_injective, fun p q h => foldl_crcByte_xor p q 0 0 h, calcCrc_zero_cons,
    calcCrc_replicate_zero, fun p => (calcCrc_append p _).trans (crcByte_eq_zero_iff.mpr rfl)⟩

theorem one_shiftLeft_ne_zero {k : Nat} (hk : k < 8) : (1 <<< k : Byte) ≠ 0 := by
  decide +revert

/-- Settles O10: up to the changed byte the accumulators agree; there the step tells the two bytes apart, and every later
step keeps them apart. -/
theorem crcSeesEverySingleBit : Obligations.CrcSeesEverySingleBit := by
  intro p i k b hb hk heq
  obtain ⟨hi, rfl⟩ := List.getElem?_eq_some_iff.mp hb
  have hp : p = p.take i ++ p[i] :: p.drop (i + 1) := by simp
  rw [List.set_eq_take_append_cons_drop, if_pos hi] at heq
  conv at heq => rhs; rw [hp]
  simp only [calcCrc, List.foldl_append, List.foldl_cons] at heq
  have hbyte := crcByte_right_injective (foldl_crcByte_injective _ heq)
  exact one_shiftLeft_ne_zero hk (by simpa using hbyte)

end Sys2Proof.Machine
end

section
/-! PROOFS. The COBS encoder (R130 to R140): what a byte does to the current block, the blocks the output consists of. -/

namespace Sys2Proof.Machine

/-! ### The registers -/

@[simp] theorem EncRegs.close_code (r : EncRegs) : r.close.1.code = 1 := rfl
@[simp] theorem EncRegs.close_blk (r : EncRegs) : r.close.1.blk = [] := rfl
@[simp] theorem EncRegs.close_emitted (r : EncRegs) : r.close.2 = r.code :: r.blk := rfl
@[simp] theorem EncRegs.append_code (b : Byte) (r : EncRegs) : (r.append b).code = r.code + 1 := rfl
@[simp] theorem EncRegs.append_blk (b : Byte) (r : EncRegs) : (r.append b).blk = r.blk ++ [b] := rfl

/-- R131, as a proposition. -/
theorem encGood_iff {rule : Config.CapRule} {r : EncRegs} : encGood rule r = true ↔
    r.blk.length + 1 = r.code.toNat ∧ noDelim r.blk = true ∧ (rule = .closeOnFill → r.code ≠ 255) := by
  cases rule <;> simp [encGood, and_assoc, Config.maxBlock]

theorem encGood_start (rule : Config.CapRule) : encGood rule EncRegs.start = true := by
  cases rule <;> decide

/-- An empty block is legal. -/
theorem encGood_of_empty (rule : Config.CapRule) {r : EncRegs} (hc : r.code = 1) (hb : r.blk = []) :
    encGood rule r = true :=
  encGood_iff.mpr ⟨by rw [hc, hb]; rfl, by rw [hb]; rfl, fun _ => by rw [hc]; decide⟩

theorem encGood_close (rule : Config.CapRule) (r : EncRegs) : encGood rule r.close.1 = true :=
  encGood_of_empty rule rfl rfl

/-- The code of a legal block is not zero, so what a close emits has no delimiter (R134, R138). -/
theorem noDelim_close {rule : Config.CapRule} {r : EncRegs} (h : encGood rule r = true) :
    noDelim r.close.2 = true := by
  obtain ⟨hlen, hnd, -⟩ := encGood_iff.mp h
  have hcode : r.code ≠ 0x00 := by
    intro hz
    rw [hz] at hlen
    exact absurd hlen (Nat.succ_ne_zero _)
  simpa [hnd] using hcode

theorem toNat_succ_of_ne {c : Byte} (h : c ≠ 255) : (c + 1).toNat = c.toNat + 1 := by
  bv_omega

/-- A non-zero byte keeps a block legal that is neither full nor, under close-on-fill, one short of full. -/
theorem encGood_append {rule : Config.CapRule} {r : EncRegs} {b : Byte} (h : encGood rule r = true) (hb : b ≠ 0x00)
    (hne : r.code ≠ 255) (hfill : rule = .closeOnFill → r.code ≠ 254) : encGood rule (r.append b) = true := by
  obtain ⟨hlen, hnd, -⟩ := encGood_iff.mp h
  refine encGood_iff.mpr ⟨?_, by simpa [hnd] using hb, fun hr => ?_⟩
  · rw [EncRegs.append_code, toNat_succ_of_ne hne, ← hlen]
    simp
  · have := hfill hr
    rw [EncRegs.append_code]
    bv_omega

/-- What `ENC_BYTE` does in a legal state (R133, C1): a zero closes the block; a full block is closed before the byte; a
block one short of full is closed with the byte, under close-on-fill; any other byte is appended. -/
theorem EncRegs.byte_cases {rule : Config.CapRule} {r : EncRegs} (h : encGood rule r = true) (b : Byte) :
    (b = 0#8 ∧ r.byte rule b = r.close) ∨
    (b ≠ 0#8 ∧ rule = .literal ∧ r.code = 255#8 ∧ r.byte rule b = (r.close.1.append b, r.close.2)) ∨
    (b ≠ 0#8 ∧ rule = .closeOnFill ∧ r.code = 254#8 ∧ r.byte rule b = (r.append b).close) ∨
    (b ≠ 0#8 ∧ r.code ≠ 255#8 ∧ (rule = .closeOnFill → r.code ≠ 254#8) ∧ r.byte rule b = (r.append b, [])) := by
  obtain ⟨-, -, hfull⟩ := encGood_iff.mp h
  have hdelim : Config.delim = 0#8 := rfl
  have hmax : Config.maxBlock = 255#8 := rfl
  by_cases hb : b = 0#8
  · exact .inl ⟨hb, by cases rule <;> simp [EncRegs.byte, EncRegs.byteLiteral, EncRegs.byteCloseOnFill, hdelim, hb]⟩
  · cases rule with
    | literal =>
      by_cases hc : r.code = 255#8
      · exact .inr (.inl ⟨hb, rfl, hc, by simp [EncRegs.byte, EncRegs.byteLiteral, hdelim, hmax, hb, hc]⟩)
      · exact .inr (.inr (.inr ⟨hb, hc, nofun, by simp [EncRegs.byte, EncRegs.byteLiteral, hdelim, hmax, hb, hc]⟩))
    | closeOnFill =>
      have hfill : (r.append b).code = 255#8 ↔ r.code = 254#8 := by
        rw [EncRegs.append_code]
        constructor <;> intro hc <;> bv_omega
      by_cases hc : r.code = 254#8
      · refine .inr (.inr (.inl ⟨hb, rfl, hc, ?_⟩))
        simp only [EncRegs.byte, EncRegs.byteCloseOnFill, hdelim, hmax, if_neg hb, if_pos (hfill.mpr hc)]
      · refine .inr (.inr (.inr ⟨hb, hfull rfl, fun _ => hc, ?_⟩))
        simp only [EncRegs.byte, EncRegs.byteCloseOnFill, hdelim, hmax, if_neg hb, if_neg (mt hfill.mp hc)]

/-- The cases under the literal rule, with the code as a number (R133). -/
theorem EncRegs.byteLiteral_cases {r : EncRegs} (h : encGood .literal r = true) (b : Byte) :
    (b = 0#8 ∧ r.byte .literal b = r.close) ∨
    (b ≠ 0#8 ∧ r.code.toNat = 255 ∧ r.byte .literal b = (r.close.1.append b, r.close.2)) ∨
    (b ≠ 0#8 ∧ r.code.toNat ≠ 255 ∧ (r.code.toNat + 1) % 256 = r.code.toNat + 1 ∧
      r.byte .literal b = (r.append b, [])) := by
  rcases EncRegs.byte_cases h b with ⟨hb, he⟩ | ⟨hb, -, hc, he⟩ | ⟨-, hr, -, -⟩ | ⟨hb, hc, -, he⟩
  · exact .inl ⟨hb, he⟩
  · exact .inr (.inl ⟨hb, congrArg BitVec.toNat hc, he⟩)
  · cases hr
  · have hn : r.code.toNat ≠ 255 := fun hn => hc (BitVec.eq_of_toNat_eq hn)
    exact .inr (.inr ⟨hb, hn, by omega, he⟩)

/-- Just before its close under close-on-fill, the block that the byte filled fits its code. -/
theorem encGood_literal_append {rule : Config.CapRule} {r : EncRegs} {b : Byte} (h : encGood rule r = true)
    (hb : b ≠ 0x00) (hc : r.code = 254) : encGood .literal (r.append b) = true := by
  obtain ⟨hlen, hnd, -⟩ := encGood_iff.mp h
  refine encGood_append (encGood_iff.mpr ⟨hlen, hnd, nofun⟩) hb ?_ nofun
  rw [hc]
  decide

theorem encGood_byte {rule : Config.CapRule} {r : EncRegs} (h : encGood rule r = true) (b : Byte) :
    encGood rule (r.byte rule b).1 = true := by
  rcases EncRegs.byte_cases h b with ⟨-, he⟩ | ⟨hb, hr, -, he⟩ | ⟨-, -, -, he⟩ | ⟨hb, hc, hf, he⟩ <;> rw [he]
  · exact encGood_close rule r
  · refine encGood_append (encGood_close rule r) hb ?_ (fun hf => by cases hr.symm.trans hf)
    rw [EncRegs.close_code]
    decide
  · exact encGood_close rule _
  · exact encGood_append h hb hc hf

theorem noDelim_byte {rule : Config.CapRule} {r : EncRegs} (h : encGood rule r = true) (b : Byte) :
    noDelim (r.byte rule b).2 = true := by
  rcases EncRegs.byte_cases h b with ⟨-, he⟩ | ⟨-, -, -, he⟩ | ⟨hb, -, hc, he⟩ | ⟨-, -, -, he⟩ <;> rw [he]
  · exact noDelim_close h
  · exact noDelim_close h
  · exact noDelim_close (encGood_literal_append h hb hc)
  · rfl

/-- Settles O17: the four cases of `ENC_BYTE`; the bounds are those of a legal block's code. -/
theorem encoderStepsStayLegal : Obligations.EncoderStepsStayLegal := by
  intro rule b r h
  have hstep := encGood_byte h b
  obtain ⟨hlen, -, -⟩ := encGood_iff.mp hstep
  have hlt := (r.byte rule b).1.code.isLt
  exact ⟨hstep, encGood_close rule r, noDelim_byte h b, noDelim_close h, by omega, by omega⟩

/-! ### The output has no delimiter -/

theorem noDelim_encodeFrom {rule : Config.CapRule} {r : EncRegs} (h : encGood rule r = true) (input : Bytes) :
    noDelim (encodeFrom rule r input) = true := by
  induction input generalizing r with
  | nil => exact noDelim_close h
  | cons b input ih => simp [encodeFrom, noDelim_byte h b, ih (encGood_byte h b)]

theorem noDelim_stuffWith (rule : Config.CapRule) (input : Bytes) : noDelim (stuffWith rule input) = true :=
  noDelim_encodeFrom (encGood_start rule) input

/-- Settles O12: every byte emitted along the way is non-zero. -/
theorem stuffOutputHasNoDelimiter : Obligations.StuffOutputHasNoDelimiter :=
  fun rule input => noDelim_iff.mp (noDelim_stuffWith rule input)

/-! ### The loop of R136 -/

/-- The loop's registers, the code as a number, and the encoder's agree on what is out and what is to come. -/
theorem stuffLoop_eq_encodeFrom (input out : Bytes) {r : EncRegs} (h : encGood .literal r = true) :
    (let st := input.foldl stuffTurn (out, r.code.toNat, r.blk)
     st.1 ++ [BitVec.ofNat 8 st.2.1] ++ st.2.2) = out ++ encodeFrom .literal r input := by
  induction input generalizing out r with
  | nil => simp [encodeFrom]
  | cons b input ih =>
    have turn : stuffTurn (out, r.code.toNat, r.blk) b =
        (out ++ (r.byte .literal b).2, (r.byte .literal b).1.code.toNat, (r.byte .literal b).1.blk) := by
      rcases EncRegs.byteLiteral_cases h b with ⟨hb, he⟩ | ⟨hb, hc, he⟩ | ⟨hb, hc, hmod, he⟩
      · rw [he]; simp [stuffTurn, hb]
      · rw [he]; simp [stuffTurn, hb, BitVec.eq_of_toNat_eq (y := 255#8) hc]
      · rw [he]; simp [stuffTurn, hb, hc, hmod]
    simp only [List.foldl_cons, turn]
    exact (ih _ (encGood_byte h b)).trans (by simp [encodeFrom])

theorem stuff_eq_stuffLoop (input : Bytes) : stuffWith .literal input = stuffLoop input :=
  (stuffLoop_eq_encodeFrom input [] (r := EncRegs.start) (encGood_start .literal)).symm

/-- Settles O11: a start that fits is not refused and ends by `endOk`; the loop of R136 runs the same steps. -/
theorem stuffResult : Obligations.StuffResult := by
  refine ⟨fun input out s hs hfit hover hcap => ?_, stuff_eq_stuffLoop, by decide⟩
  have ho : operandRefusal s.params (.stuff input out) = none := by
    simp [operandRefusal, lengthRefusal_of_fits hfit, bufferRefusal_of_room hover hcap]
  calc exec (.stuff input out) s = .next (s.endOk .enc (.bytes (stuffWith s.params.capRule input))) :=
        unlessRefused_of_idle hs ho
    _ = _ := congrArg _ (State.endOk_enc_of_idle hs _)

/-! ### The length of the output -/

/-- Every byte of the input and of the open block comes out, with a code for each block; a zero stands for its block's
code (R137). -/
theorem length_encodeFrom {r : EncRegs} (h : encGood .literal r = true) (input : Bytes) :
    (encodeFrom .literal r input).length = r.blk.length + input.length + 1 + capClosesFrom r.code.toNat input := by
  induction input generalizing r with
  | nil => simp [encodeFrom, capClosesFrom]
  | cons b input ih =>
    have hrest := ih (encGood_byte h b)
    rw [encodeFrom, List.length_append, hrest]
    rcases EncRegs.byteLiteral_cases h b with ⟨hb, he⟩ | ⟨hb, hc, he⟩ | ⟨hb, hc, hmod, he⟩
    · rw [he]; simp [capClosesFrom, hb]; omega
    · rw [he]; simp [capClosesFrom, hb, hc]; omega
    · rw [he]; simp [capClosesFrom, hb, hc, hmod]; omega

/-- Each cap close needs 254 non-zero bytes in its block and one more behind them (R137). -/
theorem capClosesFrom_bound {c : Nat} (hc : 1 ≤ c) (x : Bytes) :
    capClosesFrom c x = 0 ∨ 254 * capClosesFrom c x + 2 ≤ c + x.length := by
  induction x generalizing c with
  | nil => exact .inl rfl
  | cons b x ih =>
    simp only [capClosesFrom, List.length_cons]
    split
    · have := ih (Nat.le_refl 1); omega
    · split
      · have := ih (c := 2) (by omega); omega
      · have := ih (c := c + 1) (by omega); omega

theorem capCloses_le (x : Bytes) : capCloses x ≤ (x.length - 1) / 254 := by
  rw [Nat.le_div_iff_mul_le (by decide)]
  have := capClosesFrom_bound (Nat.le_refl 1) x
  unfold capCloses
  omega

theorem length_stuff (input : Bytes) : (stuff input).length = input.length + 1 + capCloses input := by
  have h := length_encodeFrom (encGood_start .literal) input
  simpa [stuff, stuffWith, EncRegs.start, capCloses] using h

/-- Settles O13: the length counts bytes and codes; the bounds follow from the bound on the cap closes. -/
theorem stuffOutputLength : Obligations.StuffOutputLength := by
  intro input
  have hlen := length_stuff input
  have hcap := capCloses_le input
  exact ⟨hlen, hcap, by omega, by omega⟩

/-! ### The blocks of the output -/

/-- The block that a close emitted, if there was one (R134). -/
def emittedBlock : Bytes → List Block
  | [] => []
  | code :: data => [(code, data)]

/-- The blocks of the output: those closed by the bytes of the input, then the last one. -/
def encBlocks (rule : Config.CapRule) (r : EncRegs) : Bytes → List Block
  | [] => emittedBlock r.close.2
  | b :: rest => emittedBlock (r.byte rule b).2 ++ encBlocks rule (r.byte rule b).1 rest

@[simp] theorem blockBytes_nil : blockBytes [] = [] := rfl

@[simp] theorem blockBytes_cons (b : Block) (bs : List Block) : blockBytes (b :: bs) = b.1 :: b.2 ++ blockBytes bs := rfl

@[simp] theorem blockBytes_append (as bs : List Block) : blockBytes (as ++ bs) = blockBytes as ++ blockBytes bs := by
  simp [blockBytes]

theorem blockBytes_emittedBlock (bs : Bytes) : blockBytes (emittedBlock bs) = bs := by
  cases bs <;> simp [emittedBlock]

theorem encodeFrom_eq_blockBytes (rule : Config.CapRule) (r : EncRegs) (input : Bytes) :
    encodeFrom rule r input = blockBytes (encBlocks rule r input) := by
  induction input generalizing r with
  | nil => exact (blockBytes_emittedBlock _).symm
  | cons b input ih => simp [encodeFrom, encBlocks, blockBytes_emittedBlock, ih]

/-- A close of a legal block emits a block: its code is its length, its data has no delimiter (R134). -/
theorem emittedBlock_close_fits {rule : Config.CapRule} {r : EncRegs} (h : encGood rule r = true) :
    ∀ b ∈ emittedBlock r.close.2, blockFits b = true ∧ noDelim b.2 = true := by
  obtain ⟨hlen, hnd, -⟩ := encGood_iff.mp h
  simp [emittedBlock, blockFits, hlen, hnd]

theorem emittedBlock_byte_fits {rule : Config.CapRule} {r : EncRegs} (h : encGood rule r = true) (x : Byte) :
    ∀ b ∈ emittedBlock (r.byte rule x).2, blockFits b = true ∧ noDelim b.2 = true := by
  rcases EncRegs.byte_cases h x with ⟨-, he⟩ | ⟨-, -, -, he⟩ | ⟨hx, -, hc, he⟩ | ⟨-, -, -, he⟩ <;> rw [he]
  · exact emittedBlock_close_fits h
  · exact emittedBlock_close_fits h
  · exact emittedBlock_close_fits (encGood_literal_append h hx hc)
  · simp [emittedBlock]

theorem encBlocks_fit {rule : Config.CapRule} {r : EncRegs} (h : encGood rule r = true) (input : Bytes) :
    ∀ b ∈ encBlocks rule r input, blockFits b = true ∧ noDelim b.2 = true := by
  induction input generalizing r with
  | nil => exact emittedBlock_close_fits h
  | cons x input ih =>
    intro b hb
    rcases List.mem_append.mp hb with hb | hb
    · exact emittedBlock_byte_fits h x b hb
    · exact ih (encGood_byte h x) b hb

theorem encBlocks_ne_nil (rule : Config.CapRule) (r : EncRegs) (input : Bytes) : encBlocks rule r input ≠ [] := by
  induction input generalizing r with
  | nil => simp [encBlocks, emittedBlock]
  | cons b input ih => simp [encBlocks, ih]

/-- A block for each zero, for each cap close, and the last one (R139). -/
theorem length_encBlocks {r : EncRegs} (h : encGood .literal r = true) (input : Bytes) :
    (encBlocks .literal r input).length = input.count 0x00 + capClosesFrom r.code.toNat input + 1 := by
  induction input generalizing r with
  | nil => simp [encBlocks, emittedBlock, capClosesFrom]
  | cons b input ih =>
    rw [encBlocks, List.length_append, ih (encGood_byte h b)]
    rcases EncRegs.byteLiteral_cases h b with ⟨hb, he⟩ | ⟨hb, hc, he⟩ | ⟨hb, hc, hmod, he⟩
    · rw [he]; simp [emittedBlock, capClosesFrom, hb]; omega
    · rw [he]; simp [emittedBlock, capClosesFrom, hb, hc]; omega
    · rw [he]; simp [emittedBlock, capClosesFrom, hb, hc, hmod]

/-- The data of the blocks are the non-zero bytes, in order (R139). -/
theorem flatMap_encBlocks {rule : Config.CapRule} {r : EncRegs} (h : encGood rule r = true) (input : Bytes) :
    (encBlocks rule r input).flatMap (·.2) = r.blk ++ input.filter (· != 0x00) := by
  induction input generalizing r with
  | nil => simp [encBlocks, emittedBlock]
  | cons b input ih =>
    rw [encBlocks, List.flatMap_append, ih (encGood_byte h b)]
    rcases EncRegs.byte_cases h b with ⟨hb, he⟩ | ⟨hb, -, -, he⟩ | ⟨hb, -, -, he⟩ | ⟨hb, -, -, he⟩ <;> rw [he] <;>
      simp [emittedBlock, hb]

/-- Settles O14: the blocks the encoder emitted. -/
theorem stuffOutputIsBlocks : Obligations.StuffOutputIsBlocks := by
  intro input
  have hgood := encGood_start .literal
  refine ⟨encBlocks .literal EncRegs.start input, encodeFrom_eq_blockBytes _ _ _, length_encBlocks hgood input,
    encBlocks_fit hgood input, flatMap_encBlocks hgood input⟩

end Sys2Proof.Machine
end

section
/-! PROOFS. The COBS decoder (R150 to R158): complete blocks, the first bad one, and every input is one of the two. -/

namespace Sys2Proof.Machine

/-! ### Blocks -/

theorem blockFits_iff {b : Block} : blockFits b = true ↔ b.2.length + 1 = b.1.toNat := by
  simp [blockFits]

/-- What the decoder puts after the data of a block: a `0x00`, if the code is below 255 and input remains (R154). -/
def afterBlock (code : Byte) (post : Bytes) : Bytes := if code ≠ 255 ∧ post ≠ [] then [0x00] else []

theorem reinserted_eq_afterBlock (pre post : Bytes) (code : Byte) :
    reinserted (pre.length + post.length) pre.length code = afterBlock code post := by
  have hpos : pre.length < pre.length + post.length ↔ post ≠ [] := by
    rw [← List.length_pos_iff]; omega
  simp only [reinserted, afterBlock, Config.maxBlock, Config.delim, hpos]

theorem blockBytes_eq_nil {bs : List Block} : blockBytes bs = [] ↔ bs = [] := by
  cases bs <;> simp

/-- The data of the first block, what stands between it and the rest, the rest (R154). -/
theorem joinBlocks_cons (b : Block) (bs : List Block) :
    joinBlocks (b :: bs) = b.2 ++ afterBlock b.1 (blockBytes bs) ++ joinBlocks bs := by
  cases bs with
  | nil => simp [joinBlocks, afterBlock]
  | cons c bs => by_cases h : b.1 = 255 <;> simp [joinBlocks, afterBlock, h]

theorem length_le_length_blockBytes (bs : List Block) : bs.length ≤ (blockBytes bs).length := by
  induction bs with
  | nil => simp
  | cons b bs ih => simp only [blockBytes_cons, List.length_append, List.length_cons]; omega

/-! ### The loop of R151 -/

/-- One turn at a block that fits. -/
theorem unstuffFrom_block {b : Block} (hb : blockFits b = true) (pre post out : Bytes) (fuel : Nat) :
    unstuffFrom (pre ++ (b.1 :: b.2 ++ post)) (fuel + 1) pre.length out =
      unstuffFrom (pre ++ (b.1 :: b.2 ++ post)) fuel (pre ++ b.1 :: b.2).length
        (out ++ b.2 ++ afterBlock b.1 post) := by
  have hlen := blockFits_iff.mp hb
  have hend : (pre ++ b.1 :: b.2).length = pre.length + b.1.toNat := by simp [← hlen]
  have htotal : (pre ++ (b.1 :: b.2 ++ post)).length = (pre ++ b.1 :: b.2).length + post.length := by
    simp only [List.length_append, List.length_cons]; omega
  have hcode : (pre ++ (b.1 :: b.2 ++ post))[pre.length]? = some b.1 := by simp
  have hgood : badBlock (pre ++ (b.1 :: b.2 ++ post)).length pre.length b.1 = false := by
    refine badBlock_eq_false.mpr ⟨?_, by omega⟩
    intro hz
    rw [hz] at hlen
    exact absurd hlen (Nat.succ_ne_zero _)
  have hdata : ((pre ++ (b.1 :: b.2 ++ post)).drop (pre.length + 1)).take (b.1.toNat - 1) = b.2 := by
    rw [List.drop_length_add_append, ← hlen]
    simp
  rw [unstuffFrom, hcode]
  simp only [hgood, hdata, Bool.false_eq_true, if_false]
  rw [← hend, htotal, reinserted_eq_afterBlock]

/-- The loop at the end of its input (R151). -/
theorem unstuffFrom_end (input out : Bytes) (fuel : Nat) : unstuffFrom input fuel input.length out = .ok out := by
  cases fuel <;> simp [unstuffFrom]

/-- Complete blocks give their data joined. -/
theorem unstuffFrom_blocks {bs : List Block} (hbs : ∀ b ∈ bs, blockFits b = true) (pre out : Bytes) {fuel : Nat}
    (hfuel : bs.length ≤ fuel) :
    unstuffFrom (pre ++ blockBytes bs) fuel pre.length out = .ok (out ++ joinBlocks bs) := by
  induction bs generalizing pre out fuel with
  | nil => simpa [joinBlocks] using unstuffFrom_end pre out fuel
  | cons b bs ih =>
    obtain ⟨fuel, rfl⟩ : ∃ k, fuel = k + 1 := ⟨fuel - 1, by simp at hfuel; omega⟩
    obtain ⟨hb, hrest⟩ := List.forall_mem_cons.mp hbs
    have hturn := unstuffFrom_block hb pre (blockBytes bs) out fuel
    have hmore := ih hrest (pre ++ b.1 :: b.2) (out ++ b.2 ++ afterBlock b.1 (blockBytes bs))
      (Nat.le_of_succ_le_succ hfuel)
    rw [blockBytes_cons, hturn, joinBlocks_cons]
    simpa using hmore

/-- A block that the decoder refuses: a zero code, or one that runs past the end (R152, R153). -/
def Truncated (code : Byte) (rest : Bytes) : Prop := code = 0x00 ∨ rest.length + 1 < code.toNat

theorem badBlock_of_truncated {code : Byte} {rest : Bytes} (h : Truncated code rest) (pre : Bytes) :
    badBlock (pre ++ code :: rest).length pre.length code = true := by
  rcases h with rfl | h
  · simp [badBlock]
  · simp only [badBlock, Bool.or_eq_true, decide_eq_true_eq, List.length_append, List.length_cons]
    exact .inr (by omega)

/-- After complete blocks a bad one is an error, at its cursor. -/
theorem unstuffFrom_truncated {bs : List Block} (hbs : ∀ b ∈ bs, blockFits b = true) {code : Byte} {rest : Bytes}
    (hbad : Truncated code rest) (pre out : Bytes) {fuel : Nat} (hfuel : bs.length < fuel) :
    unstuffFrom (pre ++ (blockBytes bs ++ code :: rest)) fuel pre.length out =
      .error (pre ++ blockBytes bs).length := by
  induction bs generalizing pre out fuel with
  | nil =>
    obtain ⟨fuel, rfl⟩ : ∃ k, fuel = k + 1 := ⟨fuel - 1, by omega⟩
    have hb := badBlock_of_truncated hbad pre
    simp only [blockBytes_nil, List.nil_append, List.append_nil, unstuffFrom, List.getElem?_append_right (Nat.le_refl _),
      Nat.sub_self, List.getElem?_cons_zero, hb, if_true]
  | cons b bs ih =>
    obtain ⟨fuel, rfl⟩ : ∃ k, fuel = k + 1 := ⟨fuel - 1, by omega⟩
    obtain ⟨hb, hrest⟩ := List.forall_mem_cons.mp hbs
    have hturn := unstuffFrom_block hb pre (blockBytes bs ++ code :: rest) out fuel
    have hmore := ih hrest (pre ++ b.1 :: b.2) (out ++ b.2 ++ afterBlock b.1 (blockBytes bs ++ code :: rest))
      (Nat.lt_of_succ_lt_succ hfuel)
    rw [blockBytes_cons, List.append_assoc, hturn]
    simpa using hmore

/-! ### The function -/

theorem unstuff_blockBytes {bs : List Block} (hbs : ∀ b ∈ bs, blockFits b = true) :
    unstuff (blockBytes bs) = .ok (joinBlocks bs) := by
  simpa [unstuff] using unstuffFrom_blocks hbs [] [] (length_le_length_blockBytes bs)

theorem unstuff_truncated {bs : List Block} (hbs : ∀ b ∈ bs, blockFits b = true) {code : Byte} {rest : Bytes}
    (hbad : Truncated code rest) : unstuff (blockBytes bs ++ code :: rest) = .error (blockBytes bs).length := by
  have hfuel : bs.length < (blockBytes bs ++ code :: rest).length := by
    have := length_le_length_blockBytes bs
    simp only [List.length_append, List.length_cons]
    omega
  simpa [unstuff] using unstuffFrom_truncated hbs hbad [] [] hfuel

/-- Every input is complete blocks, or complete blocks and a bad one. -/
theorem exists_blocks (input : Bytes) : ∃ bs : List Block, (∀ b ∈ bs, blockFits b = true) ∧
    (input = blockBytes bs ∨ ∃ code rest, Truncated code rest ∧ input = blockBytes bs ++ code :: rest) := by
  induction hn : input.length using Nat.strong_induction_on generalizing input with
  | _ n ih =>
    cases input with
    | nil => exact ⟨[], nofun, .inl rfl⟩
    | cons code rest =>
      by_cases hbad : Truncated code rest
      · exact ⟨[], nofun, .inr ⟨code, rest, hbad, rfl⟩⟩
      · obtain ⟨hz, hlong⟩ := not_or.mp hbad
        have hpos : code.toNat ≠ 0 := fun h => hz (BitVec.eq_of_toNat_eq h)
        have hfit : blockFits (code, rest.take (code.toNat - 1)) = true :=
          blockFits_iff.mpr (by simp only [List.length_take]; omega)
        have hshort : (rest.drop (code.toNat - 1)).length < n := by
          simp only [← hn, List.length_drop, List.length_cons]; omega
        have hsplit : code :: rest = code :: rest.take (code.toNat - 1) ++ rest.drop (code.toNat - 1) := by simp
        obtain ⟨bs, hbs, hcases⟩ := ih _ hshort _ rfl
        refine ⟨(code, rest.take (code.toNat - 1)) :: bs, List.forall_mem_cons.mpr ⟨hfit, hbs⟩, ?_⟩
        rcases hcases with hd | ⟨c, r, hbad', hd⟩
        · exact .inl (by rw [hsplit, hd]; rfl)
        · exact .inr ⟨c, r, hbad', by rw [hsplit, hd]; simp⟩

/-- Decoding succeeds exactly on complete blocks, with their data joined. -/
theorem unstuff_eq_ok_iff {input output : Bytes} : unstuff input = .ok output ↔
    ∃ bs : List Block, (∀ b ∈ bs, blockFits b = true) ∧ input = blockBytes bs ∧ output = joinBlocks bs := by
  constructor
  · intro h
    obtain ⟨bs, hbs, rfl | ⟨code, rest, hbad, rfl⟩⟩ := exists_blocks input
    · rw [unstuff_blockBytes hbs] at h
      exact ⟨bs, hbs, rfl, (Except.ok.inj h).symm⟩
    · rw [unstuff_truncated hbs hbad] at h
      cases h
  · rintro ⟨bs, hbs, rfl, rfl⟩
    exact unstuff_blockBytes hbs

/-! ### The operation -/

theorem exec_unstuff_of_ok {input output : Bytes} {out : OutBuf} {s : State} (hs : s.op = none)
    (hfit : fitsLenW s.params input.length = true) (hover : out.overlapsInput = false)
    (hcap : ∀ cap, out.cap = some cap → output.length ≤ cap) (hu : unstuff input = .ok output) :
    exec (.unstuff input out) s = .next (s.endOk .dec (.bytes output)) := by
  have ho : operandRefusal s.params (.unstuff input out) = none := by
    simp [operandRefusal, lengthRefusal_of_fits hfit, hu, bufferRefusal_of_room hover hcap]
  exact (unlessRefused_of_idle hs ho).trans (by rw [hu])

theorem exec_unstuff_of_error {input : Bytes} {r : Nat} {out : OutBuf} {s : State} (hs : s.op = none)
    (hfit : fitsLenW s.params input.length = true) (hover : out.overlapsInput = false)
    (hu : unstuff input = .error r) :
    exec (.unstuff input out) s = .next (s.raiseFailure .dec .invalidEncoding (.cursor r)) := by
  have ho : operandRefusal s.params (.unstuff input out) = none := by
    simp [operandRefusal, lengthRefusal_of_fits hfit, hu, bufferRefusal_zero hover]
  exact (unlessRefused_of_idle hs ho).trans (by rw [hu])

/-- Settles O18: complete blocks and the first bad one, at the function; every input is one of these. -/
theorem unstuffResult : Obligations.UnstuffResult := by
  refine ⟨fun bs rest code out s hs hover hbs => ?_, fun input => ?_, rfl, rfl⟩
  · have fails {c : Byte} (hbad : Truncated c rest) (hfit : fitsLenW s.params (blockBytes bs ++ c :: rest).length = true) :
        ∃ d, exec (.unstuff (blockBytes bs ++ c :: rest) out) s =
          .next { s with dec := DecRegs.reset, ok := false, err := .invalidEncoding, diag := d, result := .nothing } :=
      ⟨_, (exec_unstuff_of_error hs hfit hover (unstuff_truncated hbs hbad)).trans
        (congrArg _ (State.raiseFailure_dec_of_idle hs _ _))⟩
    refine ⟨fun hfit hcap => ?_, fails (.inl rfl), fun hfit hlong => fails (.inr hlong) hfit⟩
    exact (exec_unstuff_of_ok hs hfit hover hcap (unstuff_blockBytes hbs)).trans
      (congrArg _ (State.endOk_dec_of_idle hs _))
  · obtain ⟨bs, hbs, h | ⟨code, rest, rfl | hlong, h⟩⟩ := exists_blocks input
    · exact ⟨bs, hbs, .inl h⟩
    · exact ⟨bs, hbs, .inr (.inl ⟨rest, h⟩)⟩
    · exact ⟨bs, hbs, .inr (.inr ⟨code, rest, hlong, h⟩)⟩

theorem length_afterBlock_le (code : Byte) (post : Bytes) : (afterBlock code post).length ≤ 1 := by
  unfold afterBlock; split <;> simp

/-- A block puts out its data and at most one byte for its code; the last block nothing for it (R156). -/
theorem length_joinBlocks (b : Block) (bs : List Block) :
    (joinBlocks (b :: bs)).length + 1 ≤ (blockBytes (b :: bs)).length := by
  induction bs generalizing b with
  | nil => simp [joinBlocks]
  | cons c bs ih =>
    have := ih c
    have := length_afterBlock_le b.1 (blockBytes (c :: bs))
    rw [joinBlocks_cons, blockBytes_cons b]
    simp only [List.length_append, List.length_cons]
    omega

/-- Settles O19: what decodes is blocks, and their data joined are shorter than their bytes. -/
theorem unstuffOutputBound : Obligations.UnstuffOutputBound := by
  intro input output h
  obtain ⟨bs, -, rfl, rfl⟩ := unstuff_eq_ok_iff.mp h
  cases bs with
  | nil => simp [joinBlocks]
  | cons b bs =>
    have := length_joinBlocks b bs
    exact ⟨by omega, fun _ => by omega⟩

theorem blockFits_ofNat {data : Bytes} (h : data.length ≤ 254) :
    blockFits (BitVec.ofNat 8 (data.length + 1), data) = true :=
  blockFits_iff.mpr (by simp only [BitVec.toNat_ofNat]; omega)

/-- Settles O20: one block, and a full one before an empty one, are complete blocks whose data are not looked at. -/
theorem unstuffCopiesVerbatim : Obligations.UnstuffCopiesVerbatim := by
  refine ⟨fun data hlen => ?_, fun data hlen => ?_, rfl⟩
  · have h := unstuff_blockBytes (bs := [(BitVec.ofNat 8 (data.length + 1), data)]) (by simpa using blockFits_ofNat hlen)
    simpa [joinBlocks] using h
  · have h := unstuff_blockBytes (bs := [(0xFF, data), (0x01, [])]) (by simp [blockFits, hlen])
    simpa [joinBlocks] using h

end Sys2Proof.Machine
end

section
/-! PROOFS. The round trip of the codec (R140, C1): what the decoder makes of the encoder's blocks. -/

namespace Sys2Proof.Machine

theorem unstuff_stuffWith (rule : Config.CapRule) (x : Bytes) :
    unstuff (stuffWith rule x) = .ok (joinBlocks (encBlocks rule EncRegs.start x)) := by
  rw [stuffWith, encodeFrom_eq_blockBytes]
  exact unstuff_blockBytes fun b hb => (encBlocks_fit (encGood_start rule) x b hb).1

/-- The blocks still to come decode to the open block's data and what follows it. -/
theorem joinBlocks_cons_encBlocks (b : Block) (rule : Config.CapRule) (r : EncRegs) (x : Bytes) :
    joinBlocks (b :: encBlocks rule r x) =
      b.2 ++ (if b.1 = 255#8 then [] else [0x00]) ++ joinBlocks (encBlocks rule r x) := by
  have hne : blockBytes (encBlocks rule r x) ≠ [] := mt blockBytes_eq_nil.mp (encBlocks_ne_nil rule r x)
  rw [joinBlocks_cons, afterBlock]
  by_cases h : b.1 = 255#8 <;> simp [h, hne]

/-- Under the literal rule the blocks decode to all but the zeros that met a full block (R140). -/
theorem joinBlocks_encBlocks_literal {r : EncRegs} (h : encGood .literal r = true) (x : Bytes) :
    joinBlocks (encBlocks .literal r x) = r.blk ++ survivorsFrom r.code.toNat x := by
  induction x generalizing r with
  | nil => simp [encBlocks, emittedBlock, joinBlocks, survivorsFrom]
  | cons b x ih =>
    have hrest := ih (encGood_byte h b)
    rw [encBlocks]
    rcases EncRegs.byteLiteral_cases h b with ⟨hb, he⟩ | ⟨hb, hc, he⟩ | ⟨hb, hc, hmod, he⟩ <;> rw [he] at hrest ⊢
    · have hfull : r.code = 255#8 ↔ r.code.toNat = 255 := BitVec.toNat_inj.symm
      simp only [EncRegs.close_emitted, emittedBlock, List.singleton_append, joinBlocks_cons_encBlocks, hrest, hfull]
      by_cases hc : r.code.toNat = 255 <;> simp [survivorsFrom, hb, hc]
    · simp only [EncRegs.close_emitted, emittedBlock, List.singleton_append, joinBlocks_cons_encBlocks, hrest]
      simp [survivorsFrom, hb, BitVec.eq_of_toNat_eq (y := 255#8) hc]
    · simpa [emittedBlock, survivorsFrom, hb, hc, hmod] using hrest

/-- Under close-on-fill they decode to everything (C1). -/
theorem joinBlocks_encBlocks_closeOnFill {r : EncRegs} (h : encGood .closeOnFill r = true) (x : Bytes) :
    joinBlocks (encBlocks .closeOnFill r x) = r.blk ++ x := by
  induction x generalizing r with
  | nil => simp [encBlocks, emittedBlock, joinBlocks]
  | cons b x ih =>
    obtain ⟨-, -, hfull⟩ := encGood_iff.mp h
    have hne : r.code ≠ 255#8 := hfull rfl
    have hrest := ih (encGood_byte h b)
    rw [encBlocks]
    rcases EncRegs.byte_cases h b with ⟨hb, he⟩ | ⟨-, hr, -, -⟩ | ⟨hb, -, hc, he⟩ | ⟨hb, -, -, he⟩
    · rw [he] at hrest ⊢
      simp only [EncRegs.close_emitted, emittedBlock, List.singleton_append, joinBlocks_cons_encBlocks, hrest]
      simp [hb, hne]
    · cases hr
    · rw [he] at hrest ⊢
      simp only [EncRegs.close_emitted, emittedBlock, List.singleton_append, joinBlocks_cons_encBlocks, hrest]
      simp [hc]
    · rw [he] at hrest ⊢
      simpa [emittedBlock] using hrest

theorem unstuff_stuff (x : Bytes) : unstuff (stuff x) = .ok (survivors x) := by
  rw [stuff, unstuff_stuffWith, joinBlocks_encBlocks_literal (encGood_start .literal)]
  rfl

/-- Settles O16: the encoder's blocks under close-on-fill decode to the whole input. -/
theorem closeOnFillRoundTrip : Obligations.CloseOnFillRoundTrip := by
  intro x
  rw [unstuff_stuffWith, joinBlocks_encBlocks_closeOnFill (encGood_start .closeOnFill)]
  rfl

/-! ### Lost zeros -/

theorem length_survivorsFrom_le (c : Nat) (x : Bytes) : (survivorsFrom c x).length ≤ x.length := by
  induction x generalizing c with
  | nil => simp [survivorsFrom]
  | cons b x ih =>
    simp only [survivorsFrom]
    split
    · have := ih 1
      split <;> simp only [List.length_cons] <;> omega
    · simpa using ih _

/-- Nothing is missing exactly when no zero meets a full block. -/
theorem survivorsFrom_eq_self_iff (c : Nat) (x : Bytes) : survivorsFrom c x = x ↔ losesZeroFrom c x = false := by
  induction x generalizing c with
  | nil => simp [survivorsFrom, losesZeroFrom]
  | cons b x ih =>
    simp only [survivorsFrom, losesZeroFrom]
    split
    · split
      next hc =>
        have hshort : survivorsFrom 1 x ≠ b :: x := fun h => by
          have := congrArg List.length h
          have := length_survivorsFrom_le 1 x
          simp only [List.length_cons] at *
          omega
        simp [hc, hshort]
      next hc => simp [hc, ih]
    · simp [ih]

/-- From block length `c`, a run of non-zero bytes up to a zero that fills the last of its blocks exactly. -/
def FullRun (c : Nat) (run : Bytes) : Prop :=
  (0x00 : Byte) ∉ run ∧ 0 < c - 1 + run.length ∧ 254 ∣ c - 1 + run.length

/-- The block length after a non-zero byte continues the run (R133, R140). -/
theorem fullRun_cons {c : Nat} (h1 : 1 ≤ c) (h2 : c ≤ 255) {b : Byte} (hb : b ≠ 0x00) (run : Bytes) :
    FullRun c (b :: run) ↔ FullRun (if c = 255 then 2 else c + 1) run := by
  have hb' : (0x00 : Byte) ≠ b := hb.symm
  simp only [FullRun, List.mem_cons, not_or, List.length_cons, hb', not_false_eq_true, true_and]
  refine and_congr_right fun _ => ?_
  split <;> omega

theorem fullRun_nil {c : Nat} (h1 : 1 ≤ c) (h2 : c ≤ 255) : FullRun c [] ↔ c = 255 := by
  simp only [FullRun, List.length_nil, List.not_mem_nil, not_false_eq_true, true_and]
  omega

/-- In `x`, a full run from block length `c`, or one behind a zero (R140). -/
def HasFullRun (c : Nat) (x : Bytes) : Prop :=
  (∃ run rest, x = run ++ 0x00 :: rest ∧ FullRun c run) ∨
  ∃ pre run rest, x = pre ++ 0x00 :: run ++ 0x00 :: rest ∧ FullRun 1 run

theorem hasFullRun_zero_cons {c : Nat} (h1 : 1 ≤ c) (h2 : c ≤ 255) (x : Bytes) :
    HasFullRun c (0x00 :: x) ↔ c = 255 ∨ HasFullRun 1 x := by
  constructor
  · rintro (⟨run, rest, hx, hrun⟩ | ⟨pre, run, rest, hx, hrun⟩)
    · cases run with
      | nil => exact .inl ((fullRun_nil h1 h2).mp hrun)
      | cons b run => exact absurd (by simp [(List.cons.inj hx).1]) hrun.1
    · cases pre with
      | nil => exact .inr (.inl ⟨run, rest, (List.cons.inj hx).2, hrun⟩)
      | cons b pre => exact .inr (.inr ⟨pre, run, rest, (List.cons.inj hx).2, hrun⟩)
  · rintro (rfl | ⟨run, rest, rfl, hrun⟩ | ⟨pre, run, rest, rfl, hrun⟩)
    · exact .inl ⟨[], x, rfl, (fullRun_nil h1 h2).mpr rfl⟩
    · exact .inr ⟨[], run, rest, rfl, hrun⟩
    · exact .inr ⟨0x00 :: pre, run, rest, rfl, hrun⟩

theorem hasFullRun_cons {c : Nat} (h1 : 1 ≤ c) (h2 : c ≤ 255) {b : Byte} (hb : b ≠ 0x00) (x : Bytes) :
    HasFullRun c (b :: x) ↔ HasFullRun (if c = 255 then 2 else c + 1) x := by
  constructor
  · rintro (⟨run, rest, hx, hrun⟩ | ⟨pre, run, rest, hx, hrun⟩)
    · cases run with
      | nil => exact absurd (List.cons.inj hx).1 hb
      | cons a run =>
        obtain ⟨rfl, rfl⟩ := List.cons.inj hx
        exact .inl ⟨run, rest, rfl, (fullRun_cons h1 h2 hb run).mp hrun⟩
    · cases pre with
      | nil => exact absurd (List.cons.inj hx).1 hb
      | cons a pre => exact .inr ⟨pre, run, rest, (List.cons.inj hx).2, hrun⟩
  · rintro (⟨run, rest, rfl, hrun⟩ | ⟨pre, run, rest, rfl, hrun⟩)
    · exact .inl ⟨b :: run, rest, rfl, (fullRun_cons h1 h2 hb run).mpr hrun⟩
    · exact .inr ⟨b :: pre, run, rest, rfl, hrun⟩

theorem losesZeroFrom_iff {c : Nat} (h1 : 1 ≤ c) (h2 : c ≤ 255) (x : Bytes) :
    losesZeroFrom c x = true ↔ HasFullRun c x := by
  induction x generalizing c with
  | nil => simp [losesZeroFrom, HasFullRun]
  | cons b x ih =>
    by_cases hb : b = 0x00
    · rw [hb, hasFullRun_zero_cons h1 h2, ← ih (c := 1) (by omega) (by omega)]
      simp [losesZeroFrom]
    · rw [hasFullRun_cons h1 h2 hb, losesZeroFrom, if_neg hb]
      exact ih (by split <;> omega) (by split <;> omega)

/-- The maximal runs of R140, from the start of `x` or behind a zero. -/
theorem losesZero_iff (x : Bytes) : losesZero x = true ↔
    ∃ pre run rest, x = pre ++ run ++ 0x00 :: rest ∧ (pre = [] ∨ pre.getLast? = some 0x00) ∧
      (0x00 : Byte) ∉ run ∧ 0 < run.length ∧ 254 ∣ run.length := by
  rw [losesZero, losesZeroFrom_iff (by decide) (by decide)]
  simp only [HasFullRun, FullRun, Nat.sub_self, Nat.zero_add]
  constructor
  · rintro (⟨run, rest, hx, hrun⟩ | ⟨pre, run, rest, hx, hrun⟩)
    · exact ⟨[], run, rest, hx, .inl rfl, hrun⟩
    · exact ⟨pre ++ [0x00], run, rest, by simpa using hx, .inr (by simp), hrun⟩
  · rintro ⟨pre, run, rest, hx, rfl | hpre, hrun⟩
    · exact .inl ⟨run, rest, hx, hrun⟩
    · obtain ⟨init, rfl⟩ := List.getLast?_eq_some_iff.mp hpre
      exact .inr ⟨init, run, rest, by simpa using hx, hrun⟩

theorem losesZero_of_short {x : Bytes} (h : x.length ≤ 254) : losesZero x = false := by
  rw [Bool.eq_false_iff]
  intro hl
  obtain ⟨pre, run, rest, rfl, -, -, hpos, hdvd⟩ := (losesZero_iff _).mp hl
  have := Nat.le_of_dvd hpos hdvd
  simp only [List.length_append, List.length_cons] at h
  omega

theorem losesZero_of_noZero {x : Bytes} (h : (0x00 : Byte) ∉ x) : losesZero x = false := by
  rw [Bool.eq_false_iff]
  intro hl
  obtain ⟨pre, run, rest, rfl, -⟩ := (losesZero_iff _).mp hl
  exact h (by simp)

theorem survivors_eq_self {x : Bytes} (h : losesZero x = false) : survivors x = x :=
  (survivorsFrom_eq_self_iff 1 x).mpr h

/-- Settles O15: the decoder sees the encoder's blocks; a zero is lost exactly where a run fills its blocks. -/
theorem roundTripExactly : Obligations.RoundTripExactly := fun x =>
  ⟨unstuff_stuff x, survivorsFrom_eq_self_iff 1 x, losesZero_iff x, fun h => survivors_eq_self (losesZero_of_short h),
    fun h => survivors_eq_self (losesZero_of_noZero h)⟩

end Sys2Proof.Machine
end

section
/-! PROOFS. The sending operations as functions (R170 to R178, R210, R213). -/

namespace Sys2Proof.Machine

/-! ### The bytes of a frame -/

theorem frameOf_empty (rule : Config.CapRule) (command : Byte) : frameOf rule command [] = [command, 0x00] := rfl

theorem frameOf_payload (rule : Config.CapRule) (command : Byte) {payload : Bytes} (h : payload ≠ []) :
    frameOf rule command payload = command :: stuffedRegion rule payload ++ [0x00] := by
  simp [frameOf, h, Config.delim]

theorem noDelim_stuffedRegion (rule : Config.CapRule) (payload : Bytes) :
    (0x00 : Byte) ∉ stuffedRegion rule payload :=
  noDelim_iff.mp (noDelim_stuffWith rule _)

/-- A frame with a non-zero command is bytes without delimiter and one delimiter (R178). -/
theorem frameOf_eq_body (rule : Config.CapRule) {command : Byte} (hc : command ≠ 0x00) (payload : Bytes) :
    ∃ body, frameOf rule command payload = body ++ [0x00] ∧ (0x00 : Byte) ∉ body := by
  by_cases hp : payload = []
  · exact ⟨[command], by rw [hp]; rfl, by simpa using hc.symm⟩
  · exact ⟨command :: stuffedRegion rule payload, frameOf_payload rule command hp,
      by simpa using ⟨hc.symm, noDelim_stuffedRegion rule payload⟩⟩

/-! ### The operations -/

/-- The end of a sending operation that has written these bytes, in an idle block. -/
theorem State.endOk_framer_writeBytes {s : State} (hs : s.op = none) (bs : Bytes) :
    (s.writeBytes bs).endOk .framer .nothing =
      { s with
        tx := s.tx ++ bs, frm := FramerRegs.reset
        ok := true, err := .none, diag := .none, result := .nothing } := by
  rw [State.writeBytes_eq]
  exact State.endOk_framer_of_idle (s := { s with tx := s.tx ++ bs }) hs _

theorem exec_encodeAndSend_of_idle {command : Byte} {payload : Bytes} {s : State} (hs : s.op = none)
    (hfit : fitsLenW s.params payload.length = true) :
    exec (.encodeAndSend command payload) s =
      .next ((s.writeBytes (frameOf s.params.capRule command payload)).endOk .framer .nothing) :=
  unlessRefused_of_idle hs (lengthRefusal_of_fits hfit)

theorem exec_sendAck_of_idle (command : Byte) {s : State} (hs : s.op = none) :
    exec (.sendAck command) s = .next ((s.writeBytes [command, 0x00]).endOk .framer .nothing) :=
  unlessRefused_of_idle hs rfl

theorem exec_sendResetSequence_of_idle {s : State} (hs : s.op = none) :
    exec .sendResetSequence s = .next ((s.writeBytes Config.resetSeq).endOk .framer .nothing) :=
  unlessRefused_of_idle hs rfl

theorem fitsLenW_zero (p : Config.Params) : fitsLenW p 0 = true := by
  unfold fitsLenW
  split
  · rfl
  · exact decide_eq_true (Nat.two_pow_pos _)

/-- Settles O21: the frame of an empty payload is two bytes, and its length always fits. -/
theorem bareCommandFrame : Obligations.BareCommandFrame := fun _ s hs =>
  (exec_encodeAndSend_of_idle (payload := []) hs (fitsLenW_zero s.params)).trans
    (congrArg _ (State.endOk_framer_writeBytes hs _))

/-- Settles O26: `send_ack` writes what `encode_and_send` writes for an empty payload. -/
theorem sendAckFrame : Obligations.SendAckFrame := fun command s hs =>
  ⟨(exec_sendAck_of_idle command hs).trans (exec_encodeAndSend_of_idle (payload := []) hs (fitsLenW_zero s.params)).symm,
    (exec_sendAck_of_idle command hs).trans (congrArg _ (State.endOk_framer_writeBytes hs _))⟩

/-- Settles O27: the seven bytes are written whatever TX holds. -/
theorem resetSequenceBytes : Obligations.ResetSequenceBytes := fun _ hs =>
  (exec_sendResetSequence_of_idle hs).trans (congrArg _ (State.endOk_framer_writeBytes hs _))

/-- Settles O23: TX grows by the frame, whose only delimiter is its last byte. -/
theorem frameHasOneDelimiter : Obligations.FrameHasOneDelimiter := by
  refine ⟨fun command payload s t hc h => ?_, noDelim_stuffedRegion⟩
  obtain ⟨-, ht⟩ := unlessRefused_eq_next.mp h
  obtain ⟨body, hbody, hnd⟩ := frameOf_eq_body s.params.capRule hc payload
  cases ht
  exact ⟨body, by simp [State.writeBytes_eq, hbody], hnd⟩

/-- Settles O24: command, delimiter, and the stuffed length of one byte more than the payload. -/
theorem frameLength : Obligations.FrameLength := by
  intro command payload
  have hlong (hp : payload ≠ []) : (frameOf .literal command payload).length =
      payload.length + 4 + capCloses (payload ++ [calcCrc payload]) := by
    have hlen := length_stuff (payload ++ [calcCrc payload])
    rw [frameOf_payload _ _ hp]
    simp only [List.length_append, List.length_cons, List.length_nil, stuffedRegion] at hlen ⊢
    rw [← stuff, hlen]
    omega
  refine ⟨fun hp => by rw [hp]; rfl, hlong, fun hp hshort => ?_⟩
  have hcap := capCloses_le (payload ++ [calcCrc payload])
  simp only [List.length_append, List.length_cons, List.length_nil] at hcap
  rw [hlong hp]
  omega

/-- What `exec` answers for the three sending operations: the bytes are written and the framer is released. -/
theorem exec_send_eq_next {i : Instr} {s t : State}
    (hi : (∃ c p, i = .encodeAndSend c p) ∨ (∃ c, i = .sendAck c) ∨ i = .sendResetSequence)
    (h : exec i s = .next t) : ∃ bytes, t = (s.writeBytes bytes).endOk .framer .nothing ∧
      (∀ c p, i = .encodeAndSend c p → bytes = frameOf s.params.capRule c p) ∧
      (∀ c, i = .sendAck c → bytes = [c, 0x00]) ∧ (i = .sendResetSequence → bytes = Config.resetSeq) := by
  rcases hi with ⟨c, p, rfl⟩ | ⟨c, rfl⟩ | rfl
  · obtain ⟨-, ht⟩ := unlessRefused_eq_next.mp h
    cases ht
    exact ⟨_, rfl, by rintro _ _ ⟨⟩; rfl, nofun, nofun⟩
  · obtain ⟨-, ht⟩ := unlessRefused_eq_next.mp h
    cases ht
    exact ⟨_, rfl, nofun, by rintro _ ⟨⟩; rfl, nofun⟩
  · obtain ⟨-, ht⟩ := unlessRefused_eq_next.mp h
    cases ht
    exact ⟨_, rfl, nofun, nofun, fun _ => rfl⟩

/-- Settles O45: writing changes TX alone, and the end of the operation the framer and the outcome. -/
theorem sendingOperationsFrame : Obligations.SendingOperationsFrame := by
  intro i s t hi h
  have hop : i.isOp = true := by
    rcases hi with ⟨c, p, rfl⟩ | ⟨c, rfl⟩ | rfl <;> rfl
  obtain ⟨hs, -⟩ := op_eq_none_of_exec hop h
  obtain ⟨bytes, rfl, hsend, hack, hresync⟩ := exec_send_eq_next hi h
  simp only [State.endOk_framer_writeBytes hs, and_self, and_true, List.append_cancel_left_eq]
  exact ⟨hsend, hack, hresync⟩

end Sys2Proof.Machine
end

section
/-! PROOFS. Reception (R191, R192, R201, R207, R215): what a reader makes of the bytes that have arrived. -/

namespace Sys2Proof.Machine

/-! ### Limits -/

theorem fitsLenW_iff {p : Config.Params} {n : Nat} :
    fitsLenW p n = true ↔ ∀ w, p.lenW = some w → n < 2 ^ w := by
  unfold fitsLenW
  cases p.lenW <;> simp

theorem bufFull_eq_false_iff {p : Config.Params} {buf : Bytes} :
    bufFull p buf = false ↔ ∀ m, p.rxBufMax = some m → buf.length < m := by
  unfold bufFull
  cases p.rxBufMax <;> simp

theorem bufFull_of_max {p : Config.Params} {buf : Bytes} {m : Nat} (hm : p.rxBufMax = some m) (h : m ≤ buf.length) :
    bufFull p buf = true := by
  simp [bufFull, hm, h]

theorem roomFor_iff {p : Config.Params} {n : Nat} :
    roomFor p n = true ↔ (∀ m, p.rxBufMax = some m → n ≤ m) ∧ fitsLenW p n = true := by
  unfold roomFor
  cases p.rxBufMax <;> simp

theorem roomFor_of_le {p : Config.Params} {m n : Nat} (h : roomFor p n = true) (hle : m ≤ n) : roomFor p m = true := by
  obtain ⟨hmax, hfit⟩ := roomFor_iff.mp h
  exact roomFor_iff.mpr ⟨fun k hk => hle.trans (hmax k hk),
    fitsLenW_iff.mpr fun w hw => lt_of_le_of_lt hle (fitsLenW_iff.mp hfit w hw)⟩

/-- Without a limit of its own a buffer is bounded by `LEN_W` alone. -/
theorem roomFor_of_max {p : Config.Params} {n : Nat} (hm : p.rxBufMax = some n) (hfit : fitsLenW p n = true) :
    roomFor p n = true :=
  roomFor_iff.mpr ⟨fun m h => by rw [hm] at h; cases h; rfl, hfit⟩

/-- One more byte would be beyond `LEN_W`, so all before fits it, and `RX_BUF_MAX` if that is not smaller. -/
theorem roomFor_of_lenW {p : Config.Params} {n w : Nat} (hmax : ∀ m, p.rxBufMax = some m → 2 ^ w ≤ m)
    (hw : p.lenW = some w) (hn : n + 1 = 2 ^ w) : roomFor p n = true := by
  refine roomFor_iff.mpr ⟨fun m hm => ?_, fitsLenW_iff.mpr fun v hv => ?_⟩
  · have := hmax m hm
    omega
  · rw [hw] at hv
    cases hv
    omega

/-! ### One byte -/

theorem receiveByte_of_full {p : Config.Params} {buf : Bytes} (rd : Reader) (h : bufFull p buf = true) (b : Byte) :
    receiveByte p rd buf b = .overflow := by
  simp [receiveByte, h]

theorem receiveByte_of_beyond {p : Config.Params} {buf : Bytes} (rd : Reader) (hf : bufFull p buf = false)
    (h : fitsLenW p (buf.length + 1) = false) (b : Byte) : receiveByte p rd buf b = .beyondLenW := by
  simp [receiveByte, hf, h]

/-- With room for it, the byte is appended, and the reader ends or goes on (R191, R215). -/
theorem receiveByte_of_room {p : Config.Params} {buf : Bytes} (rd : Reader) (h : roomFor p (buf.length + 1) = true)
    (b : Byte) : receiveByte p rd buf b =
      if rd.ends (buf ++ [b]) then .complete (buf ++ [b]) else .more (buf ++ [b]) := by
  obtain ⟨hmax, hfit⟩ := roomFor_iff.mp h
  have hf : bufFull p buf = false := bufFull_eq_false_iff.mpr hmax
  simp [receiveByte, hf, hfit]

/-! ### Where a reader ends -/

/-- The delimiter ends a frame, wherever it stands (R191). -/
theorem ends_frame_append (reader : FrameReader) (buf : Bytes) (b : Byte) :
    (Reader.frame reader).ends (buf ++ [b]) = true ↔ b = 0x00 := by
  simp [Reader.ends, Config.delim]

/-- The sought sequence is at the end of the buffer (R215). -/
theorem tailMatches_iff {buf seq : Bytes} : tailMatches buf seq = true ↔ seq <:+ buf := by
  simp only [tailMatches, Bool.and_eq_true, decide_eq_true_eq, beq_iff_eq]
  exact ⟨fun h => List.suffix_iff_eq_drop.mpr h.2.symm, fun h => ⟨h.length_le, (List.suffix_iff_eq_drop.mp h).symm⟩⟩

/-- The reader does not end within these bytes, read after what is in the buffer. -/
def Unended (rd : Reader) (buf bs : Bytes) : Prop := ∀ q, q <+: bs → q ≠ [] → rd.ends (buf ++ q) = false

theorem Unended.head {rd : Reader} {buf bs : Bytes} {b : Byte} (h : Unended rd buf (b :: bs)) :
    rd.ends (buf ++ [b]) = false :=
  h [b] (by simp) (by simp)

theorem Unended.tail {rd : Reader} {buf bs : Bytes} {b : Byte} (h : Unended rd buf (b :: bs)) :
    Unended rd (buf ++ [b]) bs := by
  intro q hq _
  simpa using h (b :: q) (by simpa using hq) (by simp)

/-- Bytes without delimiter do not end a frame. -/
theorem unended_frame (reader : FrameReader) (buf : Bytes) {bs : Bytes} (h : (0x00 : Byte) ∉ bs) :
    Unended (.frame reader) buf bs := by
  intro q hq hne
  obtain ⟨init, b, rfl⟩ := List.eq_nil_or_concat' q |>.resolve_left hne
  rw [← List.append_assoc, Bool.eq_false_iff]
  intro he
  rw [ends_frame_append] at he
  exact h (hq.subset (by simp [he]))

theorem unended_sequence {seq buf bs : Bytes} (h : ∀ q, q <+: bs → q ≠ [] → ¬ seq <:+ buf ++ q) :
    Unended (.sequence seq) buf bs :=
  fun q hq hne => Bool.eq_false_iff.mpr (mt tailMatches_iff.mp (h q hq hne))

/-! ### The scan -/

/-- Bytes within which the reader does not end go into the buffer. -/
theorem scan_append_of_unended {p : Config.Params} {rd : Reader} {buf bs : Bytes}
    (hroom : roomFor p (buf.length + bs.length) = true) (h : Unended rd buf bs) (more : Bytes) :
    scan p rd buf (bs ++ more) = scan p rd (buf ++ bs) more := by
  induction bs generalizing buf with
  | nil => simp
  | cons b bs ih =>
    have hr : receiveByte p rd buf b = .more (buf ++ [b]) := by
      rw [receiveByte_of_room rd (roomFor_of_le hroom (by simp))]
      simp [h.head]
    have hroom' : roomFor p ((buf ++ [b]).length + bs.length) = true := roomFor_of_le hroom (by simp; omega)
    rw [List.cons_append, scan, hr]
    simpa using ih hroom' h.tail

theorem scan_of_unended {p : Config.Params} {rd : Reader} {buf bs : Bytes}
    (hroom : roomFor p (buf.length + bs.length) = true) (h : Unended rd buf bs) :
    scan p rd buf bs = .dry (buf ++ bs) := by
  simpa [scan] using scan_append_of_unended hroom h []

/-- The byte that ends the reader ends the scan; what follows is unread. -/
theorem scan_of_ends {p : Config.Params} {rd : Reader} {buf bs rest : Bytes} {b : Byte}
    (hroom : roomFor p (buf.length + bs.length + 1) = true) (h : Unended rd buf bs)
    (he : rd.ends (buf ++ bs ++ [b]) = true) :
    scan p rd buf (bs ++ b :: rest) = .complete (buf ++ bs ++ [b]) rest := by
  have hr : receiveByte p rd (buf ++ bs) b = .complete (buf ++ bs ++ [b]) := by
    rw [receiveByte_of_room rd (by simpa using hroom), if_pos he]
  rw [scan_append_of_unended (roomFor_of_le hroom (by omega)) h, scan, hr]

/-- The byte for which there is no room ends the scan (R201). -/
theorem scan_of_full {p : Config.Params} {rd : Reader} {buf bs rest : Bytes} {b : Byte}
    (hroom : roomFor p (buf.length + bs.length) = true) (h : Unended rd buf bs) (hfull : bufFull p (buf ++ bs) = true) :
    scan p rd buf (bs ++ b :: rest) = .overflow (buf ++ bs).length rest := by
  rw [scan_append_of_unended hroom h, scan, receiveByte_of_full rd hfull]

/-- The byte beyond a finite `LEN_W` ends the scan (log 14). -/
theorem scan_of_beyond {p : Config.Params} {rd : Reader} {buf bs rest : Bytes} {b : Byte}
    (hroom : roomFor p (buf.length + bs.length) = true) (h : Unended rd buf bs) (hf : bufFull p (buf ++ bs) = false)
    (hw : fitsLenW p ((buf ++ bs).length + 1) = false) : scan p rd buf (bs ++ b :: rest) = .beyondLenW := by
  rw [scan_append_of_unended hroom h, scan, receiveByte_of_beyond rd hf hw]

/-- A frame is read up to its delimiter (R191). -/
theorem scan_frame {p : Config.Params} (reader : FrameReader) {buf pre : Bytes}
    (hroom : roomFor p (buf.length + pre.length + 1) = true) (h : (0x00 : Byte) ∉ pre) (rest : Bytes) :
    scan p (.frame reader) buf (pre ++ 0x00 :: rest) = .complete (buf ++ pre ++ [0x00]) rest :=
  scan_of_ends hroom (unended_frame reader buf h) ((ends_frame_append reader _ _).mpr rfl)

/-- What a frame's reader has read at its end is bytes without delimiter and the delimiter (R56). -/
theorem scan_frame_complete {p : Config.Params} {reader : FrameReader} {rx buf buf' rest : Bytes}
    (h : scan p (.frame reader) buf rx = .complete buf' rest) :
    ∃ pre, rx = pre ++ 0x00 :: rest ∧ buf' = buf ++ pre ++ [0x00] ∧ (0x00 : Byte) ∉ pre := by
  induction rx generalizing buf with
  | nil => cases h
  | cons b rx ih =>
    simp only [scan] at h
    rcases receiveByte_cases p (.frame reader) buf b with
      ⟨-, hr⟩ | ⟨-, -, hr⟩ | ⟨-, -, he, hr⟩ | ⟨-, -, he, hr⟩ <;> rw [hr] at h
    · cases h
    · cases h
    · cases h
      obtain rfl := (ends_frame_append reader buf b).mp he
      exact ⟨[], rfl, by simp, by simp⟩
    · have hb : b ≠ 0x00 := fun hb => by simp [(ends_frame_append reader buf b).mpr hb] at he
      obtain ⟨pre, rfl, rfl, hnd⟩ := ih h
      exact ⟨b :: pre, rfl, by simp, by simpa using ⟨hb.symm, hnd⟩⟩

/-- The readers of frames read alike. -/
theorem scan_frame_congr (p : Config.Params) (r q : FrameReader) (buf rx : Bytes) :
    scan p (.frame r) buf rx = scan p (.frame q) buf rx := by
  induction rx generalizing buf with
  | nil => rfl
  | cons b rx ih =>
    have hr : receiveByte p (.frame r) buf b = receiveByte p (.frame q) buf b := rfl
    simp only [scan, hr, ih]

/-! ### The operation -/

/-- A reading operation in an idle block runs its reader. -/
theorem exec_reader_of_idle {rd : Reader} {s : State} (hs : s.op = none) (ho : operandRefusal s.params rd.instr = none) :
    exec rd.instr s = runReader rd s := by
  rcases rd with (_ | _) | _ <;> exact unlessRefused_of_idle hs ho

theorem exec_receive_of_idle {s : State} (hs : s.op = none) :
    exec .receiveAndDecode s = runReader (.frame .packet) s :=
  exec_reader_of_idle (rd := .frame .packet) hs rfl

theorem exec_waitAck_of_idle (expected : Byte) {s : State} (hs : s.op = none) :
    exec (.waitAck expected) s = runReader (.frame (.ack expected)) s :=
  exec_reader_of_idle (rd := .frame (.ack expected)) hs rfl

theorem exec_readUntil_of_idle {seq : Bytes} {s : State} (hs : s.op = none) (hne : seq ≠ [])
    (hfit : fitsLenW s.params seq.length = true) :
    exec (.readUntilSequence seq) s = runReader (.sequence seq) s :=
  exec_reader_of_idle (rd := .sequence seq) hs
    (by simp [Reader.instr, operandRefusal, hne, lengthRefusal_of_fits hfit])

theorem runReader_of_complete {rd : Reader} {s : State} {buf rest : Bytes}
    (h : scan s.params rd [] s.rx = .complete buf rest) :
    runReader rd s = .next (concludeBuffer rd buf (s.withRx rest)) := by
  simp [runReader, h]

theorem runReader_of_overflow {rd : Reader} {s : State} {n : Nat} {rest : Bytes}
    (h : scan s.params rd [] s.rx = .overflow n rest) :
    runReader rd s = .next ((s.withRx rest).raiseFailure .deframer .allocationFailure (.bufLen n)) := by
  simp [runReader, h]

theorem runReader_of_beyond {rd : Reader} {s : State} (h : scan s.params rd [] s.rx = .beyondLenW) :
    runReader rd s = .refused .lengthBeyondLenW := by
  simp [runReader, h]

theorem runReader_of_gone {rd : Reader} {s : State} {buf : Bytes} (h : scan s.params rd [] s.rx = .dry buf)
    (hg : s.rxGone = true) :
    runReader rd s = .next ((s.withRx []).raiseFailure .deframer .transportFailure .none) := by
  simp [runReader, h, hg]

theorem runReader_of_dry {rd : Reader} {s : State} {buf : Bytes} (h : scan s.params rd [] s.rx = .dry buf)
    (hg : s.rxGone = false) : runReader rd s = .next ((s.withRx []).waiting rd buf) := by
  simp [runReader, h, hg]

end Sys2Proof.Machine
end

section
/-! PROOFS. What `receive_and_decode` and `wait_ack` make of a frame (R193 to R199, R205, R206, R208, R211, R214). -/

namespace Sys2Proof.Machine

/-! ### The packet of a received frame -/

theorem deframe_bare (command : Byte) : deframe [command, 0x00] = .ok (command, []) := rfl

theorem deframe_lone : deframe [0x00] = .error (.invalidEncoding, .none) := rfl

theorem frameBody_append (pre : Bytes) (b : Byte) : frameBody (pre ++ [b]) = pre := by
  simp [frameBody]

/-- A region that does not decode (R196). -/
theorem deframe_of_error {command : Byte} {region : Bytes} {r : Nat} (hne : region ≠ []) (h : unstuff region = .error r) :
    deframe (command :: region ++ [0x00]) = .error (.invalidEncoding, .cursor r) := by
  obtain ⟨b, region, rfl⟩ := List.exists_cons_of_ne_nil hne
  rw [deframe, frameBody_append (command :: b :: region)]
  simp [h]

/-- A region that decodes is checked against its last byte (R197, R198). -/
theorem deframe_of_ok {command : Byte} {region d : Bytes} (hne : region ≠ []) (h : unstuff region = .ok d) :
    deframe (command :: region ++ [0x00]) = (checkDecoded d).map fun payload => (command, payload) := by
  obtain ⟨b, region, rfl⟩ := List.exists_cons_of_ne_nil hne
  rw [deframe, frameBody_append (command :: b :: region)]
  simp [h]

theorem checkDecoded_append (payload : Bytes) (crc : Byte) : checkDecoded (payload ++ [crc]) =
    if calcCrc payload = crc then .ok payload else .error (.crcMismatch, .crcs (calcCrc payload) crc) := by
  simp [checkDecoded]

/-- Decoding a frame fails with one of two kinds, or gives a packet whose command is the frame's first byte. -/
theorem deframe_cases (buf : Bytes) :
    (∃ k d, deframe buf = .error (k, d) ∧ (k = .invalidEncoding ∨ k = .crcMismatch)) ∨
    ∃ command payload region, deframe buf = .ok (command, payload) ∧ frameBody buf = command :: region := by
  unfold deframe
  split
  next => exact .inl ⟨_, _, rfl, .inl rfl⟩
  next command hb => exact .inr ⟨command, [], [], rfl, hb⟩
  next command region _ hb =>
    cases unstuff region with
    | error r => exact .inl ⟨_, _, rfl, .inl rfl⟩
    | ok d =>
      rcases List.eq_nil_or_concat' d with rfl | ⟨payload, crc, rfl⟩
      · exact .inl ⟨_, _, rfl, .inl rfl⟩
      · simp only [checkDecoded_append]
        split
        · exact .inr ⟨command, payload, region, rfl, hb⟩
        · exact .inl ⟨_, _, rfl, .inr rfl⟩

/-! ### Receiving one frame -/

/-- With a frame at the head of the RX stream and room for it, a frame's reader takes it and concludes. -/
theorem runReader_frame {reader : FrameReader} {pre rest : Bytes} {s : State}
    (hroom : roomFor s.params (pre.length + 1) = true) (hnd : (0x00 : Byte) ∉ pre) (hrx : s.rx = pre ++ 0x00 :: rest) :
    runReader (.frame reader) s = .next (concludeBuffer (.frame reader) (pre ++ [0x00]) (s.withRx rest)) := by
  have hscan := scan_frame reader (buf := []) (by simpa using hroom) hnd rest
  exact runReader_of_complete (by rw [hrx]; simpa using hscan)

/-- A frame that does not decode ends `receive_and_decode` with that failure. -/
theorem exec_receive_of_error {pre rest : Bytes} {s : State} {k : ErrKind} {d : Diag} (hs : s.op = none)
    (hroom : roomFor s.params (pre.length + 1) = true) (hnd : (0x00 : Byte) ∉ pre) (hrx : s.rx = pre ++ 0x00 :: rest)
    (hd : deframe (pre ++ [0x00]) = .error (k, d)) :
    exec .receiveAndDecode s =
      .next { s with
        rx := rest, dfr := DeframerRegs.reset
        ok := false, err := k, diag := d, result := .nothing } := by
  rw [exec_receive_of_idle hs, runReader_frame hroom hnd hrx, concludeBuffer, hd]
  exact congrArg _ (State.raiseFailure_deframer_of_idle (s := s.withRx rest) hs k d)

/-- A frame that decodes ends it with the packet. -/
theorem exec_receive_of_ok {pre rest payload : Bytes} {command : Byte} {s : State} (hs : s.op = none)
    (hroom : roomFor s.params (pre.length + 1) = true) (hnd : (0x00 : Byte) ∉ pre) (hrx : s.rx = pre ++ 0x00 :: rest)
    (hd : deframe (pre ++ [0x00]) = .ok (command, payload)) :
    exec .receiveAndDecode s =
      .next { s with
        rx := rest, dfr := DeframerRegs.reset
        ok := true, err := .none, diag := .none, result := .packet command payload } := by
  rw [exec_receive_of_idle hs, runReader_frame hroom hnd hrx, concludeBuffer, hd]
  exact congrArg _ (State.endOk_deframer_of_idle (s := s.withRx rest) hs _)

/-- Settles O28: one byte before the delimiter is a packet without payload. -/
theorem receiveBareCommand : Obligations.ReceiveBareCommand := fun command _ _ hs hroom hc hrx =>
  exec_receive_of_ok (pre := [command]) hs hroom (by simpa using hc.symm) hrx (deframe_bare command)

/-- Settles O29: the region decodes, and its last byte agrees with the CRC of the others or not. -/
theorem receivePayloadFrame : Obligations.ReceivePayloadFrame := by
  intro command crc region payload rest s hs hroom hc hne hnd hu hrx
  have hpre : (0x00 : Byte) ∉ command :: region := by simpa using ⟨hc.symm, hnd⟩
  have hd := (deframe_of_ok (command := command) hne hu).trans
    (congrArg (Except.map fun payload => (command, payload)) (checkDecoded_append payload crc))
  split
  next h => exact exec_receive_of_ok (pre := command :: region) hs hroom hpre hrx (by rw [hd, if_pos h]; rfl)
  next h => exact exec_receive_of_error (pre := command :: region) hs hroom hpre hrx (by rw [hd, if_neg h]; rfl)

/-- Settles O30: in the three cases the frame decodes to `InvalidEncoding`. -/
theorem receiveRejectsUndecodable : Obligations.ReceiveRejectsUndecodable := by
  intro command region rest s hs
  refine ⟨fun hroom hrx => ⟨_, exec_receive_of_error (pre := []) hs hroom (by simp) hrx deframe_lone⟩, ?_⟩
  intro hroom hc hne hnd hrx hu
  have hpre : (0x00 : Byte) ∉ command :: region := by simpa using ⟨hc.symm, hnd⟩
  rcases hu with hu | ⟨r, hu⟩
  · exact ⟨_, exec_receive_of_error (pre := command :: region) hs hroom hpre hrx (deframe_of_ok hne hu)⟩
  · exact ⟨_, exec_receive_of_error (pre := command :: region) hs hroom hpre hrx (deframe_of_error hne hu)⟩

/-- Settles O32: all that had arrived is read, then the transport is found gone. -/
theorem receiveFailsWithTransport : Obligations.ReceiveFailsWithTransport := by
  intro s hs hroom hg hnd
  have hscan := scan_of_unended (buf := []) (by simpa using hroom) (unended_frame .packet [] hnd)
  rw [exec_receive_of_idle hs, runReader_of_gone hscan hg]
  exact congrArg _ (State.raiseFailure_deframer_of_idle (s := s.withRx []) hs _ _)

/-! ### The limits of reception -/

/-- With `RX_BUF_MAX` bytes read and no end, a reader fails at the next byte (R201, D7). -/
theorem runReader_of_full {rd : Reader} {pre rest : Bytes} {b : Byte} {s : State} (hs : s.op = none)
    (hmax : s.params.rxBufMax = some pre.length) (hfit : fitsLenW s.params pre.length = true)
    (hend : Unended rd [] pre) (hrx : s.rx = pre ++ b :: rest) :
    runReader rd s =
      .next { s with
        rx := rest, dfr := DeframerRegs.reset
        ok := false, err := .allocationFailure, diag := .bufLen pre.length, result := .nothing } := by
  have hscan := scan_of_full (b := b) (rest := rest) (by simpa using roomFor_of_max hmax hfit) hend
    (bufFull_of_max hmax (by simp))
  rw [runReader_of_overflow (by rw [hrx]; exact hscan)]
  exact congrArg _ (State.raiseFailure_deframer_of_idle (s := s.withRx rest) hs _ _)

/-- With all the bytes that a finite `LEN_W` can count and no end, a reader is refused at the next (log 14). -/
theorem runReader_of_lenW {rd : Reader} {w : Nat} {pre rest : Bytes} {b : Byte} {s : State}
    (hmax : ∀ m, s.params.rxBufMax = some m → 2 ^ w ≤ m) (hw : s.params.lenW = some w) (hlen : pre.length + 1 = 2 ^ w)
    (hend : Unended rd [] pre) (hrx : s.rx = pre ++ b :: rest) : runReader rd s = .refused .lengthBeyondLenW := by
  have hf : bufFull s.params pre = false := bufFull_eq_false_iff.mpr fun m hm => by
    have := hmax m hm
    omega
  have hbeyond : fitsLenW s.params (pre.length + 1) = false := by simp [fitsLenW, hw, hlen]
  have hroom : roomFor s.params pre.length = true := roomFor_of_lenW hmax hw hlen
  exact runReader_of_beyond (by rw [hrx]; exact scan_of_beyond (by simpa using hroom) hend hf hbeyond)

/-- Without a limit no scan overflows. -/
theorem scan_ne_overflow {p : Config.Params} (hp : p.rxBufMax = none) (rd : Reader) (buf rx : Bytes) (n : Nat)
    (rest : Bytes) : scan p rd buf rx ≠ .overflow n rest := by
  induction rx generalizing buf with
  | nil => nofun
  | cons b rx ih =>
    simp only [scan]
    rcases receiveByte_cases p rd buf b with ⟨hf, -⟩ | ⟨-, -, hr⟩ | ⟨-, -, -, hr⟩ | ⟨-, -, -, hr⟩
    · simp [bufFull, hp] at hf
    · rw [hr]; nofun
    · rw [hr]; nofun
    · rw [hr]; exact ih _

/-- What `receive_and_decode` can answer when it is over: the failure of a full buffer or of the transport, the failure of
decoding, or a packet whose command is not `0x00`. -/
theorem exec_receive_cases {s t : State} (h : exec .receiveAndDecode s = .next t) (ht : t.op = none) :
    (∃ read, s.rx = read ++ t.rx) ∧
    ((∃ n rest, t.err = .allocationFailure ∧ t.ok = false ∧ t.result = .nothing ∧
        scan s.params (.frame .packet) [] s.rx = .overflow n rest) ∨
      (t.ok = false ∧ t.result = .nothing ∧
        (t.err = .transportFailure ∨ t.err = .invalidEncoding ∨ t.err = .crcMismatch)) ∨
      (t.ok = true ∧ t.err = .none ∧ ∃ command payload, t.result = .packet command payload ∧ command ≠ 0x00)) := by
  rcases runReader_eq_next (unlessRefused_eq_next.mp h).2 with
    ⟨buf, rest, hscan, rfl⟩ | ⟨n, rest, hscan, rfl⟩ | ⟨buf, -, -, rfl⟩ | ⟨buf, -, -, rfl⟩
  · obtain ⟨pre, hrx, rfl, hnd⟩ := scan_frame_complete hscan
    have hread : s.rx = (pre ++ [0x00]) ++ rest := by simpa using hrx
    rcases deframe_cases ([] ++ pre ++ [0x00]) with ⟨k, d, hd, hk⟩ | ⟨command, payload, region, hd, hbody⟩
    · rw [concludeBuffer, hd]
      exact ⟨⟨pre ++ [0x00], by simpa using hread⟩, .inr (.inl ⟨by simp, by simp, .inr (by simpa using hk)⟩)⟩
    · have hpre : pre = command :: region := by simpa [frameBody] using hbody
      have hc : command ≠ 0x00 := fun hz => hnd (by simp [hpre, hz])
      rw [concludeBuffer, hd]
      exact ⟨⟨pre ++ [0x00], by simpa [conclude] using hread⟩,
        .inr (.inr ⟨by simp [conclude], by simp [conclude], command, payload, by simp [conclude], hc⟩)⟩
  · obtain ⟨read, b, hrx, -⟩ := (scan_consumes _ _ _ _).2.1 _ _ hscan
    exact ⟨⟨read ++ [b], by simpa using hrx⟩, .inl ⟨n, rest, by simp, by simp, by simp, hscan⟩⟩
  · exact ⟨⟨s.rx, by simp⟩, .inr (.inl ⟨by simp, by simp, .inl (by simp)⟩)⟩
  · simp at ht

/-- Settles O33: the bytes up to the limit are read and none ends the frame; without a limit no scan overflows. -/
theorem receiveBufferLimit : Obligations.ReceiveBufferLimit := by
  refine ⟨fun pre rest b s hs hmax hfit hnd hrx => ?_, fun s t hmax h ht => ?_,
    fun w pre rest b s hs hmax hw hlen hnd hrx => ?_⟩
  · rw [exec_receive_of_idle hs]
    exact runReader_of_full hs hmax hfit (unended_frame .packet [] hnd) hrx
  · rcases (exec_receive_cases h ht).2 with
      ⟨n, rest, -, -, -, hscan⟩ | ⟨-, -, he | he | he⟩ | ⟨-, he, -⟩
    · exact absurd hscan (scan_ne_overflow hmax _ _ _ _ _)
    all_goals simp [he]
  · rw [exec_receive_of_idle hs]
    exact runReader_of_lenW hmax hw hlen (unended_frame .packet [] hnd) hrx

/-- Settles O34: by the cases of what the operation can answer. -/
theorem receiveNeverReturns : Obligations.ReceiveNeverReturns := by
  intro s t h ht
  obtain ⟨hread, hcases⟩ := exec_receive_cases h ht
  rcases hcases with ⟨n, rest, he, hok, hr, -⟩ | ⟨hok, hr, he | he | he⟩ | ⟨hok, he, command, payload, hr, hc⟩
  case inr.inr =>
    refine ⟨fun p hp => ?_, by simp [hok], by simp [he], fun _ => ⟨command, payload, hr⟩, hread⟩
    rw [hr] at hp
    cases hp
    exact hc rfl
  all_goals exact ⟨by simp [hr], fun _ => hr, by simp [he], by simp [hok], hread⟩

/-! ### A frame that was sent -/

theorem stuff_ne_nil (x : Bytes) : stuff x ≠ [] := by
  intro h
  have := length_stuff x
  simp only [h, List.length_nil] at this
  omega

/-- Settles O35: the region of the frame decodes to what the codec leaves of `payload ++ [crc]`; if only the CRC byte, a
zero, is lost, the last payload byte is the CRC of those before it. -/
theorem sentFrameIsReceived : Obligations.SentFrameIsReceived := by
  intro command payload rest s hs hroom hc hrx
  have hrecv {decoded : Bytes} {crc : Byte} (hp : payload ≠ [])
      (hsurv : survivors (payload ++ [calcCrc payload]) = decoded ++ [crc]) :=
    receivePayloadFrame command crc (stuffedRegion .literal payload) decoded rest s hs
      (by rw [frameOf_payload _ _ hp] at hroom; simpa using hroom) hc (stuff_ne_nil _) (noDelim_stuffedRegion _ _)
      (hsurv ▸ unstuff_stuff (payload ++ [calcCrc payload])) (by rw [hrx, frameOf_payload _ _ hp]; simp)
  refine ⟨fun hgood => ?_, fun hp hz hsurv => ?_, fun decoded crc hp hsurv => hrecv hp hsurv⟩
  · by_cases hp : payload = []
    · subst hp
      exact receiveBareCommand command rest s hs hroom hc hrx
    · have hkeep : losesZero (payload ++ [calcCrc payload]) = false := by
        rcases hgood with h | h | h
        · exact absurd h hp
        · exact h
        · exact losesZero_of_short (by simp only [List.length_append, List.length_singleton]; omega)
      exact (hrecv hp (survivors_eq_self hkeep)).trans (by rw [if_pos rfl])
  · have hlast : payload = payload.dropLast ++ [payload.getLast hp] := (List.dropLast_append_getLast hp).symm
    have hcrc : calcCrc payload.dropLast = payload.getLast hp := by
      rw [hlast, calcCrc_append, crcByte_eq_zero_iff] at hz
      exact hz
    exact (hrecv hp (hsurv.trans hlast)).trans (by rw [if_pos hcrc])

/-! ### `wait_ack` and the reset sequence -/

theorem waitAck_of_frame {expected : Byte} {s : State} (hs : s.op = none) :
    ∀ buf rest, scan s.params (.frame .packet) [] s.rx = .complete buf rest →
      exec (.waitAck expected) s = .next (concludeBuffer (.frame (.ack expected)) buf (s.withRx rest)) := by
  intro buf rest h
  rw [exec_waitAck_of_idle expected hs]
  exact runReader_of_complete (by rw [scan_frame_congr _ _ .packet, h])

/-- Settles O37: both operations read the same frame; the packet that one delivers the other tests. -/
theorem waitAckResult : Obligations.WaitAckResult := by
  refine ⟨fun expected rest s hs hroom hc hrx => ?_, fun expected s r hs hr => ?_⟩
  · rw [exec_waitAck_of_idle expected hs,
      runReader_frame (pre := [expected]) hroom (by simpa using hc.symm) hrx]
    simp only [concludeBuffer, List.singleton_append, deframe_bare, conclude]
    simpa using State.endOk_deframer_of_idle (s := s.withRx rest) hs .nothing
  · have hwait := exec_waitAck_of_idle expected hs
    have hsame := scan_frame_congr s.params (.ack expected) .packet [] s.rx
    rw [exec_receive_of_idle hs] at hr
    rcases runReader_eq_next hr with
      ⟨buf, rest, hscan, rfl⟩ | ⟨n, rest, hscan, rfl⟩ | ⟨buf, hscan, hg, rfl⟩ | ⟨buf, hscan, hg, rfl⟩ <;>
      rw [hscan] at hsame
    · rw [hwait, runReader_of_complete hsame]
      rcases deframe_cases buf with ⟨k, d, hd, -⟩ | ⟨c, p, -, hd, -⟩
      · simp [concludeBuffer, hd]
      · refine ⟨by simp [concludeBuffer, hd, conclude], by simp [concludeBuffer, hd, conclude], ?_⟩
        intro command payload _ _ hres
        obtain ⟨rfl, rfl⟩ : c = command ∧ p = payload := by simpa [concludeBuffer, hd, conclude] using hres
        refine ⟨fun hp => ?_, fun hp hne => ?_, fun hp heq => ?_⟩
        · simp [concludeBuffer, hd, conclude, hp]; rfl
        · simp [concludeBuffer, hd, conclude, hp, hne]; rfl
        · simp [concludeBuffer, hd, conclude, hp, heq]; rfl
    · rw [hwait, runReader_of_overflow hsame]
      simp
    · rw [hwait, runReader_of_gone hsame hg]
      simp
    · rw [hwait, runReader_of_dry hsame hg]
      simp
      rfl

/-- Settles O38: a shortest prefix that ends in the sequence is a scan that ends with it; the others never end. -/
theorem readUntilSequenceResult : Obligations.ReadUntilSequenceResult := by
  intro seq pre rest s hs hne hfit
  rw [exec_readUntil_of_idle hs hne hfit]
  have unended {bs : Bytes} (h : ∀ q, q <+: bs → ¬ seq <:+ q) : Unended (.sequence seq) [] bs :=
    unended_sequence fun q hq _ => h q hq
  have hdry (hroom : roomFor s.params s.rx.length = true) (h : ∀ q, q <+: s.rx → ¬ seq <:+ q) :
      scan s.params (.sequence seq) [] s.rx = .dry s.rx := scan_of_unended (by simpa using hroom) (unended h)
  refine ⟨fun hroom hmatch hfirst hrx => ?_, fun hroom h hg => ?_, fun hroom h hg => ?_, ?_, ?_⟩
  · obtain ⟨init, b, rfl⟩ : ∃ init b, pre = init ++ [b] :=
      (List.eq_nil_or_concat' pre).resolve_left fun hp => hne (List.suffix_nil.mp (hp ▸ hmatch))
    have hend : Unended (.sequence seq) [] init := unended fun q hq =>
      hfirst q (hq.trans (List.prefix_append _ _)) fun heq => by simpa [heq] using hq.length_le
    have hscan := scan_of_ends (rest := rest) (b := b) (by simpa using hroom) hend (tailMatches_iff.mpr hmatch)
    rw [runReader_of_complete (by rw [hrx]; simpa using hscan)]
    exact congrArg _ (State.endOk_deframer_of_idle (s := s.withRx rest) hs _)
  · rw [runReader_of_dry (hdry hroom h) hg]
    rfl
  · rw [runReader_of_gone (hdry hroom h) hg]
    exact congrArg _ (State.raiseFailure_deframer_of_idle (s := s.withRx []) hs _ _)
  · exact fun b hmax hfit' h hrx => runReader_of_full hs hmax hfit' (unended h) hrx
  · exact fun w b hmax hw hlen h hrx => runReader_of_lenW hmax hw hlen (unended h) hrx

/-- A lone delimiter is a failure that consumes it and leaves the block idle (R202, D8). -/
theorem exec_receive_loneDelim {rest : Bytes} {s : State} (hs : s.op = none) (hroom : roomFor s.params 2 = true)
    (hrx : s.rx = 0x00 :: rest) : ∃ t, exec .receiveAndDecode s = .next t ∧ t.ok = false ∧ t.op = none ∧
      t.params = s.params ∧ t.rx = rest :=
  ⟨_, exec_receive_of_error (pre := []) hs (roomFor_of_le hroom (by simp)) (by simp) hrx deframe_lone, rfl, hs, rfl, rfl⟩

/-- Settles O39: three lone delimiters, the frame of `0x72`, two lone delimiters. -/
theorem resetSequenceAtReceiver : Obligations.ResetSequenceAtReceiver := by
  intro rest s hs hroom hrx
  obtain ⟨t1, h1, hk1, ho1, hp1, hx1⟩ := exec_receive_loneDelim hs hroom hrx
  obtain ⟨t2, h2, hk2, ho2, hp2, hx2⟩ := exec_receive_loneDelim ho1 (by rwa [hp1]) hx1
  obtain ⟨t3, h3, hk3, ho3, hp3, hx3⟩ := exec_receive_loneDelim ho2 (by rwa [hp2, hp1]) hx2
  have hroom3 : roomFor t3.params 2 = true := by rwa [hp3, hp2, hp1]
  have h4 := receiveBareCommand 0x72 (0x00 :: 0x00 :: rest) t3 ho3 hroom3 (by decide) hx3
  obtain ⟨t5, h5, hk5, ho5, hp5, hx5⟩ := exec_receive_loneDelim (s := { t3 with
    rx := 0x00 :: 0x00 :: rest, dfr := DeframerRegs.reset
    ok := true, err := .none, diag := .none, result := .packet 0x72 [] }) ho3 hroom3 rfl
  obtain ⟨t6, h6, hk6, ho6, -, hx6⟩ := exec_receive_loneDelim ho5 (by rw [hp5]; exact hroom3) hx5
  exact ⟨t1, t2, t3, _, t5, t6, h1, hk1, h2, hk2, h3, hk3, h4, rfl, rfl, h5, hk5, h6, hk6, hx6, ho6⟩

end Sys2Proof.Machine
end

section
/-! PROOFS. The elements of the line (R53, R59, R81 to R97, R240): where no unit takes them as its own they are bytes that
arrive, for a pending read or for the RX stream. -/

namespace Sys2Proof.Machine

/-! ### What arrives -/

theorem arrive_of_gone {s : State} (hg : s.rxGone = true) (bs : Bytes) : arrive bs s = .next s := by
  induction bs with
  | nil => rfl
  | cons b bs ih =>
    have hb : arriveByte b s = .next s := by simp [arriveByte, hg]
    rw [arrive, hb, Out.andThen_next, ih]

/-- A read is pending only while nothing is unread (R53). -/
theorem State.pendingRead_of_unread {s : State} (h : s.rx ≠ []) : s.pendingRead = none := by
  unfold State.pendingRead
  split <;> simp [h]

/-- With no read pending, what arrives joins the RX stream (R240). -/
theorem arrive_of_noRead {s : State} (hg : s.rxGone = false) (hp : s.pendingRead = none) (bs : Bytes) :
    arrive bs s = .next (s.withRx (s.rx ++ bs)) := by
  induction bs generalizing s with
  | nil => simp [arrive, State.withRx]
  | cons b bs ih =>
    have hb : arriveByte b s = .next (s.withRx (s.rx ++ [b])) := by simp [arriveByte, hg, hp]
    rw [arrive, hb, Out.andThen_next, ih (s := s.withRx (s.rx ++ [b])) hg (State.pendingRead_of_unread (by simp))]
    simp [State.withRx]

/-- The operation `rd` is in RECV (R191). -/
def State.receives (rd : Reader) (s : State) : Prop := s.activity = some (.read rd) ∧ s.dfr.phase = .recv

theorem State.receives_waiting (rd : Reader) (buf : Bytes) (s : State) : (s.waiting rd buf).receives rd := by
  rcases rd with (_ | _) | _ <;> exact ⟨rfl, rfl⟩

theorem State.pendingRead_eq_some_iff {rd : Reader} {s : State} :
    s.pendingRead = some rd ↔ s.receives rd ∧ s.rx = [] := by
  unfold State.pendingRead State.receives
  cases hact : s.activity with
  | none => simp
  | some a =>
    cases a with
    | read r =>
      by_cases h : s.dfr.phase = .recv ∧ s.rx = []
      · simp [h]
      · simp only [if_neg h, reduceCtorEq, false_iff]
        exact fun h' => h ⟨h'.1.2, h'.2⟩
    | _ => simp

/-- The reader has read its end: a sequence's operation is over, a frame is split next (R193, R215). -/
def State.received (rd : Reader) (buf : Bytes) (s : State) : State :=
  match rd with
  | .sequence _ => s.endOk .deframer (.bytes buf)
  | .frame _ => { s with dfr := { s.dfr with buf := buf, phase := .split } }

/-- What a running reader makes of bytes as the scan says they end (R191, R192, R201, R215). -/
def State.afterScan (rd : Reader) (s : State) : Scan → Out
  | .complete buf rest => .next ((s.received rd buf).withRx rest)
  | .overflow n rest => .next ((s.raiseFailure .deframer .allocationFailure (.bufLen n)).withRx rest)
  | .beyondLenW => .refused .lengthBeyondLenW
  | .dry buf => .next { s with dfr := { s.dfr with buf := buf } }

/-- What is in the buffer before does not matter to it. -/
theorem State.afterScan_withBuf (rd : Reader) (buf : Bytes) (s : State) (sc : Scan) :
    ({ s with dfr := { s.dfr with buf := buf } } : State).afterScan rd sc = s.afterScan rd sc := by
  cases sc <;> cases rd <;> rfl

theorem takeReceived_of_complete {rd : Reader} {b : Byte} {s : State} {buf : Bytes}
    (h : receiveByte s.params rd s.dfr.buf b = .complete buf) : takeReceived rd b s = .next (s.received rd buf) := by
  unfold takeReceived
  rw [h]
  cases rd <;> rfl

theorem State.pendingRead_received (rd : Reader) (buf : Bytes) (s : State) : (s.received rd buf).pendingRead = none := by
  cases rd with
  | sequence seq => exact State.pendingRead_of_idle (by simp [State.received])
  | frame reader =>
    by_contra h
    obtain ⟨rd, hrd⟩ := Option.ne_none_iff_exists'.mp h
    cases (State.pendingRead_eq_some_iff.mp hrd).1.2

@[simp] theorem State.received_rx (rd : Reader) (buf : Bytes) (s : State) : (s.received rd buf).rx = s.rx := by
  cases rd <;> simp [State.received]

@[simp] theorem State.received_rxGone (rd : Reader) (buf : Bytes) (s : State) :
    (s.received rd buf).rxGone = s.rxGone := by
  cases rd <;> simp [State.received]

/-- A pending read takes what arrives as far as the scan goes; the rest is unread (R53, R191). -/
theorem arrive_of_pendingRead {rd : Reader} {s : State} (hr : s.receives rd) (hx : s.rx = []) (hg : s.rxGone = false)
    (bs : Bytes) : arrive bs s = s.afterScan rd (scan s.params rd s.dfr.buf bs) := by
  induction bs generalizing s with
  | nil => simp [arrive, scan, State.afterScan]
  | cons b bs ih =>
    have hb : arriveByte b s = takeReceived rd b s := by
      simp [arriveByte, hg, State.pendingRead_eq_some_iff.mpr ⟨hr, hx⟩]
    rw [arrive, hb, scan]
    rcases receiveByte_cases s.params rd s.dfr.buf b with
      ⟨-, h⟩ | ⟨-, -, h⟩ | ⟨-, -, -, h⟩ | ⟨-, -, -, h⟩
    · have htake : takeReceived rd b s =
          .next (s.raiseFailure .deframer .allocationFailure (.bufLen s.dfr.buf.length)) := by simp [takeReceived, h]
      rw [htake, Out.andThen_next, arrive_of_idle bs (by simp) (by simpa using hg), h]
      simp [State.afterScan, hx]
    · simp [takeReceived, h, State.afterScan]
    · rw [takeReceived_of_complete h, Out.andThen_next,
        arrive_of_noRead (by simpa using hg) (State.pendingRead_received rd _ s), h]
      simp [State.afterScan, hx]
    · have htake : takeReceived rd b s = .next { s with dfr := { s.dfr with buf := s.dfr.buf ++ [b] } } := by
        simp [takeReceived, h]
      have hmore := ih (s := { s with dfr := { s.dfr with buf := s.dfr.buf ++ [b] } }) hr hx hg
      rw [htake, Out.andThen_next, hmore, h]
      exact State.afterScan_withBuf rd _ s _

/-! ### Elements as bytes of the line -/

/-- Where no unit takes elements of its own, every wire element is the arrival of its bytes (R97). -/
theorem exec_of_line {i : Instr} {s : State} (hi : i.isOp = false) (hd : s.activeDecoder = none)
    (hc : ∀ crc, execCrcByte crc s = arrive (crcOnLine crc) s) : exec i s = arrive (onLine i) s := by
  have hcode (code : Byte) : takeCode code s = arrive [code] s := by simp [takeCode, hd]
  cases i with
  | frameE | frameP | frameCommand | frameDelim | resetSequence => rfl
  | crcByte crc => exact hc crc
  | cobsBlock code data => simp [exec, execCobsBlock, hd, onLine]
  | cobsData b => simp [exec, execCobsData, hd, onLine]
  | cobsCodeShort code => exact hcode code
  | cobsCodeFull => exact hcode 255
  | cobsCodeZero => exact hcode 0
  | _ => cases hi

theorem exec_of_line_idle {i : Instr} {s : State} (hi : i.isOp = false) (hs : s.op = none) :
    exec i s = arrive (onLine i) s :=
  exec_of_line hi (State.activeDecoder_of_idle hs) fun crc => by simp [execCrcByte, State.activity, hs]

theorem exec_of_line_receiving {i : Instr} {rd : Reader} {s : State} (hi : i.isOp = false) (hr : s.receives rd) :
    exec i s = arrive (onLine i) s := by
  obtain ⟨hact, hphase⟩ := hr
  refine exec_of_line hi ?_ fun crc => ?_
  · cases rd <;> simp [State.activeDecoder, hact, hphase]
  · cases rd <;> simp [execCrcByte, hact, DeframerRegs.atCrcByte, hphase]

/-- A unit that reads elements of its own is a running decoder, a deframer in CHECK or a framer in STUFF (R240). -/
theorem exec_of_line_notReading {i : Instr} {s : State} (hi : i.isOp = false) (hr : s.readsOwnElements = false) :
    exec i s = arrive (onLine i) s := by
  simp only [State.readsOwnElements, Bool.or_eq_false_iff, Option.isSome_eq_false_iff, Option.isNone_iff_eq_none,
    beq_eq_false_iff_ne] at hr
  obtain ⟨⟨hd, hcheck⟩, hstuff⟩ := hr
  have hframer (payload : Bytes) : s.frm.atCrcByte payload = false := by simp [FramerRegs.atCrcByte, hstuff]
  have hdeframer : s.dfr.atCrcByte = false := by simp [DeframerRegs.atCrcByte, hcheck]
  refine exec_of_line hi hd fun crc => ?_
  unfold execCrcByte
  split <;> simp [hframer, hdeframer, hcheck]

/-- The bytes of an element are those it is encoded with; a CRC byte `0x00` is elided (R89). -/
theorem onLine_of_encode {i : Instr} {pos : LinePos} {bytes : Bytes} (hi : i.isOp = false)
    (h : encode i = .line pos bytes) :
    onLine i = if pos = .crc then bytes.filter (· != Config.delim) else bytes := by
  cases i with
  | crcByte crc =>
    cases h
    by_cases hz : crc = 0#8 <;> simp [onLine, Config.delim, hz]
  | frameE | frameP | frameCommand | frameDelim | cobsBlock | cobsCodeShort | cobsCodeFull | cobsCodeZero | cobsData
  | resetSequence => cases h; rfl
  | _ => cases hi

/-- A word of the line that decodes is the arrival of its element's bytes, in every state (R240, log 27). -/
theorem runWord_line {pos : LinePos} {bytes : Bytes} {i : Instr} (h : decode (.line pos bytes) = .ok i) (s : State) :
    runWord (.line pos bytes) s = arrive (onLine i) s := by
  obtain ⟨-, hi, henc⟩ := decodedLineWordEncodesBack pos bytes i h
  simp only [runWord, h, State.arrivesOnly]
  cases hr : s.readsOwnElements with
  | true => simp [onLine_of_encode hi henc]
  | false => simpa using exec_of_line_notReading hi hr

/-- Settles O48: in an idle block every element is bytes that arrive, and they join the RX stream. -/
theorem lineElementsArrive : Obligations.LineElementsArrive := fun _ _ hi hs hg =>
  (exec_of_line_idle hi hs).trans (arrive_of_idle _ hs hg)

/-! ### Elements for a pending read -/

/-- The operations that read, as readers. -/
theorem State.receives_frame {s : State} (hphase : s.dfr.phase = .recv)
    (h : s.op = some .receiveAndDecode ∨ ∃ expected, s.op = some (.waitAck expected)) :
    ∃ reader, s.receives (.frame reader) := by
  rcases h with h | ⟨e, h⟩
  · exact ⟨.packet, by simp [State.activity, h, activityOf], hphase⟩
  · exact ⟨.ack e, by simp [State.activity, h, activityOf], hphase⟩

theorem State.receives_sequence {s : State} {seq : Bytes} (hphase : s.dfr.phase = .recv)
    (h : s.op = some (.readUntilSequence seq)) : s.receives (.sequence seq) :=
  ⟨by simp [State.activity, h, activityOf], hphase⟩

/-- Settles O49: the element's bytes are scanned; the hypotheses say how the scan ends. -/
theorem pendingReadTakesElements : Obligations.PendingReadTakesElements := by
  intro i s hi hphase hx hg
  have takes {rd : Reader} (hr : s.receives rd) :
      exec i s = s.afterScan rd (scan s.params rd s.dfr.buf (onLine i)) :=
    (exec_of_line_receiving hi hr).trans (arrive_of_pendingRead hr hx hg _)
  refine ⟨fun hop => ?_, fun seq hop => ?_, fun hop => ?_⟩
  · obtain ⟨reader, hr⟩ := State.receives_frame hphase hop
    rw [takes hr]
    refine ⟨fun hroom hnd => ?_, fun pre rest hline hnd hroom => ?_⟩
    · rw [scan_of_unended hroom (unended_frame reader _ hnd)]
      rfl
    · rw [hline, scan_frame reader hroom hnd]
      rfl
  · have hr := State.receives_sequence hphase hop
    rw [takes hr]
    refine ⟨fun hroom hnone => ?_, fun pre rest hline hne hmatch hfirst hroom => ?_⟩
    · rw [scan_of_unended hroom (unended_sequence hnone)]
      rfl
    · obtain ⟨init, b, rfl⟩ : ∃ init b, pre = init ++ [b] := (List.eq_nil_or_concat' pre).resolve_left hne
      have hend : Unended (.sequence seq) s.dfr.buf init := unended_sequence fun q hq hq0 =>
        hfirst q (hq.trans (List.prefix_append _ _)) hq0 fun heq => by simpa [heq] using hq.length_le
      have hscan := scan_of_ends (p := s.params) (rest := rest) (b := b)
        (by simpa [Nat.add_assoc] using hroom) hend (tailMatches_iff.mpr (by simpa using hmatch))
      rw [hline, List.append_assoc, List.singleton_append, hscan]
      simp only [State.afterScan, State.received, List.append_assoc]
      rfl
  · obtain ⟨rd, hr⟩ : ∃ rd, s.receives rd := by
      rcases hop with hop | hop | ⟨seq, hop⟩
      · exact (State.receives_frame hphase (.inl hop)).imp' _ fun _ h => h
      · exact (State.receives_frame hphase (.inr hop)).imp' _ fun _ h => h
      · exact ⟨_, State.receives_sequence hphase hop⟩
    rw [takes hr]
    intro b rest hline
    refine ⟨fun m hm hfull => ?_, fun hmax hbeyond => ?_⟩
    · rw [hline, scan, receiveByte_of_full rd (bufFull_of_max hm hfull)]
      rfl
    · rw [hline, scan, receiveByte_of_beyond rd (bufFull_eq_false_iff.mpr hmax) hbeyond]
      rfl

/-! ### A read that waits -/

/-- A waiting read's own step changes nothing (R192, log 24). -/
theorem advance_of_waiting {rd : Reader} {s : State} (hr : s.receives rd) (hx : s.rx = []) (hg : s.rxGone = false) :
    advance s = .next s := by
  obtain ⟨hact, hphase⟩ := hr
  have hnext : s.nextElement = none := by
    cases rd <;> simp [State.nextElement, hact, hphase, DeframerRegs.atCrcByte]
  obtain ⟨i, hop, hi⟩ := Option.bind_eq_some_iff.mp hact
  simp [advance, hnext, tick, hop, hi, tickDeframer, hphase, tickRecv, State.readByte, hx, hg]

theorem advanceN_of_fixed {s : State} (h : advance s = .next s) (k : Nat) : advanceN k s = .next s := by
  induction k with
  | zero => rfl
  | succ k ih => simp only [advanceN, h, ih]

/-- A waiting read that finds the transport gone fails (R207, D10). -/
theorem advance_of_lost {rd : Reader} {s : State} (hr : s.receives rd) (hx : s.rx = []) (hg : s.rxGone = true) :
    advance s = .next (s.raiseFailure .deframer .transportFailure .none) := by
  obtain ⟨hact, hphase⟩ := hr
  have hnext : s.nextElement = none := by
    cases rd <;> simp [State.nextElement, hact, hphase, DeframerRegs.atCrcByte]
  obtain ⟨i, hop, hi⟩ := Option.bind_eq_some_iff.mp hact
  simp [advance, hnext, tick, hop, hi, tickDeframer, hphase, tickRecv, State.readByte, hx, hg]

/-- Settles O31: without a delimiter the scan is dry and the operation waits; what arrives is scanned from there. -/
theorem receiveWaitsForDelimiter : Obligations.ReceiveWaitsForDelimiter := by
  intro s hs hroom hg hnd
  have hscan := scan_of_unended (p := s.params) (buf := []) (by simpa using hroom) (unended_frame .packet [] hnd)
  have hr := State.receives_waiting (.frame .packet) s.rx (s.withRx [])
  have takes := arrive_of_pendingRead hr rfl hg
  refine ⟨(s.withRx []).waiting (.frame .packet) s.rx, ?_, rfl, ?_, ?_, ?_, ?_⟩
  · rw [exec_receive_of_idle hs]
    exact runReader_of_dry hscan hg
  · exact advanceN_of_fixed (advance_of_waiting hr rfl hg)
  · intro more hroom' hnd'
    rw [takes]
    exact congrArg _ (scan_of_unended hroom' (unended_frame .packet _ hnd'))
  · intro hroom'
    rw [takes]
    have hend := scan_frame .packet (pre := []) hroom' (by simp) []
    rw [List.append_nil] at hend
    exact congrArg _ hend
  · exact advance_of_lost (s := ((s.withRx []).waiting (.frame .packet) s.rx).loseTransport) hr rfl rfl

end Sys2Proof.Machine
end

section
/-! PROOFS. The elements that a unit takes as its own (R97): the running decoder (R151 to R159) and the CRC byte (R172,
R198). -/

namespace Sys2Proof.Machine

/-! ### The running decoder -/

theorem State.activeDecoder_of_runs {home : DecHome} {input : Bytes} {s : State} (h : decoderRuns home input s) :
    s.activeDecoder = some { home := home, input := input, regs := decoderRegs home s } := by
  cases home with
  | standalone =>
    obtain ⟨⟨out, hop⟩, hphase⟩ := h
    simp [State.activeDecoder, State.activity, hop, activityOf, hphase, decoderRegs]
  | deframer =>
    obtain ⟨hop | ⟨e, hop⟩, hphase, hregion⟩ := h <;>
      simp [State.activeDecoder, State.activity, hop, activityOf, hphase, hregion, decoderRegs]

theorem exec_cobsBlock_of_active {a : ActiveDecoder} {s : State} (h : s.activeDecoder = some a) (code : Byte)
    (data : Bytes) : exec (.cobsBlock code data) s = applyDecStep a.home (a.regs.block a.input.length code data) s := by
  simp [exec, execCobsBlock, h]

theorem exec_cobsData_of_active {a : ActiveDecoder} {s : State} (h : s.activeDecoder = some a) (b : Byte) :
    exec (.cobsData b) s = applyDecStep a.home (a.regs.dataByte a.input.length b) s := by
  simp [exec, execCobsData, h]

theorem takeCode_of_active {a : ActiveDecoder} {s : State} (h : s.activeDecoder = some a) (code : Byte) :
    takeCode code s = applyDecStep a.home (a.regs.openBlock a.input.length code) s := by
  simp [takeCode, h]

/-- A failure of the running decoder ends its operation (R152, R153, R196). -/
theorem State.raiseFailure_decoder (home : DecHome) (d : Diag) (s : State) :
    s.raiseFailure home.unit .invalidEncoding d = decoderFailed home d s := by
  cases home <;> rfl

/-! What each element does to the registers, one equation per case. -/

theorem DecRegs.block_of_open {d : DecRegs} {c : Byte} (hc : d.code = some c) (n : Nat) (code : Byte) (data : Bytes) :
    d.block n code data = .outOfPlace := by
  simp [DecRegs.block, hc]

theorem DecRegs.openBlock_of_open {d : DecRegs} {c : Byte} (hc : d.code = some c) (n : Nat) (code : Byte) :
    d.openBlock n code = .outOfPlace := by
  simp [DecRegs.openBlock, hc]

theorem DecRegs.block_of_bad {d : DecRegs} (hc : d.code = none) {n : Nat} {code : Byte}
    (hb : badBlock n d.r code = true) (data : Bytes) : d.block n code data = .bad d.r := by
  simp [DecRegs.block, hc, hb]

theorem DecRegs.openBlock_of_bad {d : DecRegs} (hc : d.code = none) {n : Nat} {code : Byte}
    (hb : badBlock n d.r code = true) : d.openBlock n code = .bad d.r := by
  simp [DecRegs.openBlock, hc, hb]

theorem badBlock_of_beyond {n r : Nat} {code : Byte} (h : n < r + code.toNat) : badBlock n r code = true := by
  simp [badBlock, h]

theorem badBlock_of_fits {n r : Nat} {code : Byte} (h1 : 1 ≤ code.toNat) (h : r + code.toNat ≤ n) :
    badBlock n r code = false := by
  refine badBlock_eq_false.mpr ⟨?_, h⟩
  rintro rfl
  exact absurd h1 (by decide)

/-- A whole block that fits is copied and complete. -/
theorem DecRegs.block_of_fits {d : DecRegs} (hc : d.code = none) {n : Nat} {code : Byte} {data : Bytes}
    (hlen : data.length + 1 = code.toNat) (h : d.r + code.toNat ≤ n) :
    d.block n code data = .go ({ d with out := d.out ++ data }.completeBlock n code) := by
  have hb := badBlock_of_fits (by omega) h
  simp [DecRegs.block, hc, hb, ← hlen]

/-- A code that fits and has data behind it opens its block. -/
theorem DecRegs.openBlock_of_fits {d : DecRegs} (hc : d.code = none) {n : Nat} {code : Byte} (h2 : 2 ≤ code.toNat)
    (h : d.r + code.toNat ≤ n) : d.openBlock n code = .go { d with code := some code, got := 0 } := by
  have hb := badBlock_of_fits (by omega) h
  have h1 : code ≠ 1 := by
    rintro rfl
    exact absurd h2 (by decide)
  simp only [DecRegs.openBlock, hc, hb, Bool.false_eq_true, if_false, if_neg h1]

/-- A code without data is a complete block. -/
theorem DecRegs.openBlock_one {d : DecRegs} (hc : d.code = none) {n : Nat} (h : d.r + 1 ≤ n) :
    d.openBlock n 1 = .go (d.completeBlock n 1) := by
  have hb : badBlock n d.r 1 = false := badBlock_of_fits (code := 1) (by decide) h
  simp only [DecRegs.openBlock, hc, hb, Bool.false_eq_true, if_false, if_true]

theorem DecRegs.dataByte_of_closed {d : DecRegs} (hc : d.code = none) (n : Nat) (b : Byte) :
    d.dataByte n b = .outOfPlace := by
  simp [DecRegs.dataByte, hc]

theorem DecRegs.dataByte_of_more {d : DecRegs} {c : Byte} (hc : d.code = some c) (n : Nat) (b : Byte)
    (h : d.got + 2 < c.toNat) : d.dataByte n b = .go { d with out := d.out ++ [b], got := d.got + 1 } := by
  simp [DecRegs.dataByte, hc, Nat.not_le.mpr h]

theorem DecRegs.dataByte_of_last {d : DecRegs} {c : Byte} (hc : d.code = some c) (n : Nat) (b : Byte)
    (h : c.toNat = d.got + 2) : d.dataByte n b = .go ({ d with out := d.out ++ [b] }.completeBlock n c) := by
  simp [DecRegs.dataByte, hc, h]

/-- Settles O50: the element reaches the registers of the running decoder; each clause is one case of its step. -/
theorem decoderTakesElements : Obligations.DecoderTakesElements := by
  intro home input data code b s d hruns hd
  have hact := State.activeDecoder_of_runs hruns
  rw [← hd] at hact
  have hblock (c : Byte) (bs : Bytes) : exec (.cobsBlock c bs) s = applyDecStep home (d.block input.length c bs) s :=
    exec_cobsBlock_of_active hact c bs
  have hdata := exec_cobsData_of_active hact b
  have hopen (c : Byte) : takeCode c s = applyDecStep home (d.openBlock input.length c) s := takeCode_of_active hact c
  have failed : applyDecStep home (.bad d.r) s = .next (decoderFailed home (.cursor d.r) s) :=
    congrArg _ (State.raiseFailure_decoder home _ s)
  refine ⟨fun hc => ?_, fun c hc => ?_⟩
  · have bad {c : Byte} (hb : badBlock input.length d.r c = true) :
        takeCode c s = .next (decoderFailed home (.cursor d.r) s) :=
      (hopen c).trans ((congrArg (applyDecStep home · s) (DecRegs.openBlock_of_bad hc hb)).trans failed)
    refine ⟨fun hlen hfit => ?_, fun hfit => ?_, fun h2 hfit => ?_, fun hfit => ?_, ⟨_, bad rfl⟩, fun hlong => ?_,
      fun hlong => ⟨_, bad (badBlock_of_beyond hlong)⟩, ?_⟩
    · rw [hblock, DecRegs.block_of_fits hc hlen hfit]
      simp only [applyDecStep, DecRegs.completeBlock, hc]
      rfl
    · refine (hopen 1).trans ?_
      rw [DecRegs.openBlock_one hc hfit]
      have hmax : (1#8 : Byte) ≠ Config.maxBlock := by decide
      simp [applyDecStep, DecRegs.completeBlock, reinserted, hc, hmax, Config.delim]
    · exact (hopen code).trans (by rw [DecRegs.openBlock_of_fits hc h2 hfit]; rfl)
    · exact (hopen 0xFF).trans (by rw [DecRegs.openBlock_of_fits hc (by decide) hfit]; rfl)
    · have hb := badBlock_of_beyond hlong
      exact ⟨_, bad hb, by rw [hblock, DecRegs.block_of_bad hc hb, failed]⟩
    · rw [hdata]
      exact congrArg (applyDecStep home · s) (DecRegs.dataByte_of_closed hc _ b)
  · have outOfPlace (c' : Byte) : takeCode c' s = .refused .elementOutOfPlace := by
      rw [hopen, DecRegs.openBlock_of_open hc]
      rfl
    refine ⟨fun hmore => ?_, fun hlast => ?_, ?_, outOfPlace code, outOfPlace 0xFF, outOfPlace 0x00⟩
    · rw [hdata]
      exact congrArg (applyDecStep home · s) (DecRegs.dataByte_of_more hc _ b hmore)
    · rw [hdata]
      exact congrArg (applyDecStep home · s) (DecRegs.dataByte_of_last hc _ b hlast)
    · rw [hblock, DecRegs.block_of_open hc]
      rfl

/-! ### Byte-serial decoding -/

/-- A standalone decoder in RUN on `input`. -/
theorem State.activeDecoder_standalone {s : State} {input : Bytes} {out : OutBuf} {d : DecRegs}
    (hop : s.op = some (.unstuff input out)) (hphase : d.phase = .run) :
    ({ s with dec := d } : State).activeDecoder = some { home := .standalone, input := input, regs := d } := by
  simp [State.activeDecoder, State.activity, hop, activityOf, hphase]

/-- The data bytes of an open block, one by one, complete it (R159). -/
theorem foldl_cobsData {s : State} {input : Bytes} {out : OutBuf} (hop : s.op = some (.unstuff input out))
    (b : Byte) (data : Bytes) {d : DecRegs} {code : Byte} (hphase : d.phase = .run) (hc : d.code = some code)
    (hlen : d.got + data.length + 2 = code.toNat) :
    (b :: data).foldl (fun (o : Out) x => o.andThen (exec (.cobsData x))) (.next { s with dec := d }) =
      .next { s with dec := { d with out := d.out ++ b :: data }.completeBlock input.length code } := by
  induction data generalizing b d with
  | nil =>
    have hstep := exec_cobsData_of_active (State.activeDecoder_standalone (d := d) hop hphase) b
    rw [List.foldl_cons, Out.andThen_next, hstep, DecRegs.dataByte_of_last hc _ b (by simp at hlen; omega)]
    rfl
  | cons c data ih =>
    have hstep := exec_cobsData_of_active (State.activeDecoder_standalone (d := d) hop hphase) b
    have hmore := ih c (d := { d with out := d.out ++ [b], got := d.got + 1 }) hphase hc
      (by simp only [List.length_cons] at hlen ⊢; omega)
    rw [List.foldl_cons, Out.andThen_next, hstep,
      DecRegs.dataByte_of_more hc _ b (by simp only [List.length_cons] at hlen; omega)]
    exact hmore.trans (by simp [DecRegs.completeBlock])

/-- Settles O51: the code opens the block, or completes it when it has no data; the data bytes complete it. -/
theorem bytewiseDecodingAgrees : Obligations.BytewiseDecodingAgrees := by
  intro input data out code s t hop hphase hc hlen hblock ht
  have hact := State.activeDecoder_standalone (d := s.dec) hop hphase
  have hcode : exec (.cobsCodeShort code) s = applyDecStep .standalone (s.dec.openBlock input.length code) s :=
    takeCode_of_active (s := s) hact code
  have hwhole : exec (.cobsBlock code data) s = applyDecStep .standalone (s.dec.block input.length code data) s :=
    exec_cobsBlock_of_active (s := s) hact code data
  rw [hblock] at hwhole
  have hfit : s.dec.r + code.toNat ≤ input.length := by
    by_contra hlong
    rw [DecRegs.block_of_bad hc (badBlock_of_beyond (Nat.not_le.mp hlong))] at hwhole
    cases hwhole
    exact ht (State.raiseFailure_op _ _ _ _)
  rw [DecRegs.block_of_fits hc hlen hfit] at hwhole
  rw [hwhole, hcode]
  cases data with
  | nil =>
    obtain rfl : code = 1 := BitVec.eq_of_toNat_eq hlen.symm
    rw [DecRegs.openBlock_one hc hfit]
    simp [applyDecStep]
  | cons b data =>
    simp only [List.length_cons] at hlen
    rw [DecRegs.openBlock_of_fits hc (by omega) hfit]
    exact (foldl_cobsData hop b data (d := { s.dec with code := some code, got := 0 }) hphase rfl
      (by simp only; omega)).trans rfl

/-! ### The CRC byte -/

/-- Settles O52: in CHECK the end of the CRC pass decides between comparison and refusal; in STUFF the byte is encoded. -/
theorem crcByteAtItsPlace : Obligations.CrcByteAtItsPlace := by
  refine ⟨fun crc s hop hphase hi => ?_, fun crc s hop hphase hi => ?_, fun crc c p s hop hphase hflush henc hi => ?_⟩
  · have hact : s.activity = some (.read (.frame .packet)) := by simp [State.activity, hop, activityOf]
    have hat : s.dfr.atCrcByte = false := by
      rw [DeframerRegs.atCrcByte, decide_eq_false (Nat.not_le.mpr hi), Bool.and_false]
    simp [exec, execCrcByte, hact, hat, hphase]
  · have hact : s.activity = some (.read (.frame .packet)) := by simp [State.activity, hop, activityOf]
    have hat : s.dfr.atCrcByte = true := by
      simpa [DeframerRegs.atCrcByte, hphase] using hi
    have hexec : exec (.crcByte crc) s = .next (checkCrcByte .packet crc s) := by simp [exec, execCrcByte, hact, hat]
    rw [hexec, checkCrcByte]
    split <;> rfl
  · have hact : s.activity = some (.send c p) := by simp [State.activity, hop, activityOf]
    have hat : s.frm.atCrcByte p = true := by
      simp [FramerRegs.atCrcByte, hphase, hflush, henc, hi]
    simp only [exec, execCrcByte, hact, hat, if_true]
    rfl

/-! ### One step -/

theorem tick_of_idle {s : State} (hs : s.op = none) : tick s = .next s := by
  simp [tick, hs]

theorem State.nextElement_of_idle {s : State} (hs : s.op = none) : s.nextElement = none := by
  simp [State.nextElement, State.activity, hs]

theorem advance_of_idle {s : State} (hs : s.op = none) : advance s = .next s := by
  simp [advance, State.nextElement_of_idle hs, tick_of_idle hs]

/-- A start request that decodes runs its operation. -/
theorem runWord_start (opsel : BitVec 4) (o : Operands) (s : State) :
    runWord (.start opsel o) s = exec (decodeStart opsel o) s := rfl

/-- A caller's write changes no operation but `encode_and_send` (R54). -/
theorem State.rewritePayload_of_other {s : State} (h : ∀ c p, s.op ≠ some (.encodeAndSend c p)) (k : Nat) (b : Byte) :
    s.rewritePayload k b = s := by
  have hop : s.op.map (rewriteOperand k b) = s.op := by
    cases hi : s.op with
    | none => rfl
    | some i =>
      rcases rewriteOperand_cases k b i with hr | ⟨c, p, rfl, -⟩
      · simp [hr]
      · exact absurd hi (h c p)
  simp [State.rewritePayload, hop]

/-- Settles O53: input by input; a word of the line is the arrival of its element, where no unit takes it. -/
theorem stepRunsTheDecodedInstruction : Obligations.StepRunsTheDecodedInstruction := by
  refine ⟨fun s w rest i hin hd hi => ?_, fun s pos bytes rest i hin hd _ => ?_, fun s rest hin => ?_,
    fun s opsel o rest hin => ?_, fun s rest hin => ?_, fun s k b rest hin => ?_⟩
  · simp only [step, hin]
    cases w with
    | start opsel o =>
      obtain rfl : decodeStart opsel o = i := Except.ok.inj hd
      rfl
    | line pos bytes =>
      obtain ⟨-, hwire, -⟩ := decodedLineWordEncodesBack pos bytes i hd
      have hr : s.readsOwnElements = false := hi.resolve_left (by simp [hwire])
      rw [runWord_line hd]
      exact (exec_of_line_notReading (s := { s with inputs := rest }) hwire hr).symm
  · have hstep : step s = arrive (onLine i) { s with inputs := rest } := by
      simp only [step, hin]
      exact runWord_line hd _
    exact ⟨fun hg => hstep.trans (arrive_of_gone (s := { s with inputs := rest }) hg _), fun hg hp =>
      hstep.trans (arrive_of_noRead (s := { s with inputs := rest }) hg hp _)⟩
  · have hstep : step s = advance { s with inputs := rest } := by
      rcases hin with hin | ⟨hin, rfl⟩
      · simp only [step, hin]
      · simp only [step, hin]
        rw [← hin]
    have hnext : ({ s with inputs := rest } : State).nextElement = s.nextElement := rfl
    exact ⟨fun i hi => by rw [hstep, advance, hnext, hi], fun hi => by rw [hstep, advance, hnext, hi],
      fun hs => hstep.trans (advance_of_idle hs)⟩
  · simp only [step, hin]
  · simp only [step, hin]
    rfl
  · simp only [step, hin]
    refine ⟨fun c p hop => ?_, fun hne => congrArg _ (State.rewritePayload_of_other (s := { s with inputs := rest }) hne k b)⟩
    simp [State.rewritePayload, hop, rewriteOperand]

/-- Settles O55: every value is written out in the reset state. -/
theorem resetValues : Obligations.ResetValues := by
  unfold Obligations.ResetValues
  decide

/-- Settles O56: a reset as the next input is the block reset. -/
theorem blockResetKeepsTransport : Obligations.BlockResetKeepsTransport := by
  intro s rest hin
  simp only [step, hin]
  rfl

end Sys2Proof.Machine
end

section
/-! PROOFS. The end of an operation, and what an operation run as a function does to the state: it writes, reads, and ends
or waits (R18, R20, R35, R115, R190). -/

namespace Sys2Proof.Machine

/-! ### The end of an operation -/

/-- With what an operation ends (R14). -/
inductive Verdict where
  | done (result : Result)
  | failed (kind : ErrKind) (diag : Diag)

/-- A failure names its kind (R231). -/
def Verdict.Proper : Verdict → Prop
  | .done _ => True
  | .failed kind _ => kind ≠ .none

/-- The operation on this unit ends with this verdict. -/
def State.close (u : UnitName) (v : Verdict) (s : State) : State :=
  match v with
  | .done result => s.endOk u result
  | .failed kind diag => s.raiseFailure u kind diag

@[simp] theorem State.close_params (u : UnitName) (v : Verdict) (s : State) : (s.close u v).params = s.params := by
  cases v <;> simp [State.close]
@[simp] theorem State.close_inputs (u : UnitName) (v : Verdict) (s : State) : (s.close u v).inputs = s.inputs := by
  cases v <;> simp [State.close]
@[simp] theorem State.close_op (u : UnitName) (v : Verdict) (s : State) : (s.close u v).op = none := by
  cases v <;> simp [State.close]
@[simp] theorem State.close_crc (u : UnitName) (v : Verdict) (s : State) : (s.close u v).crc = (s.release u).crc := by
  cases v <;> simp [State.close]
@[simp] theorem State.close_enc (u : UnitName) (v : Verdict) (s : State) : (s.close u v).enc = (s.release u).enc := by
  cases v <;> simp [State.close]
@[simp] theorem State.close_dec (u : UnitName) (v : Verdict) (s : State) : (s.close u v).dec = (s.release u).dec := by
  cases v <;> simp [State.close]
@[simp] theorem State.close_frm (u : UnitName) (v : Verdict) (s : State) : (s.close u v).frm = (s.release u).frm := by
  cases v <;> simp [State.close]
@[simp] theorem State.close_dfr (u : UnitName) (v : Verdict) (s : State) : (s.close u v).dfr = (s.release u).dfr := by
  cases v <;> simp [State.close]
@[simp] theorem State.close_tx (u : UnitName) (v : Verdict) (s : State) : (s.close u v).tx = s.tx := by
  cases v <;> simp [State.close]
@[simp] theorem State.close_rx (u : UnitName) (v : Verdict) (s : State) : (s.close u v).rx = s.rx := by
  cases v <;> simp [State.close]
@[simp] theorem State.close_rxGone (u : UnitName) (v : Verdict) (s : State) : (s.close u v).rxGone = s.rxGone := by
  cases v <;> simp [State.close]

/-- The outcome is that of the verdict alone (R35, R243). -/
theorem State.close_outcome (u w : UnitName) (v : Verdict) (s t : State) :
    (s.close u v).ok = (t.close w v).ok ∧ (s.close u v).err = (t.close w v).err ∧
      (s.close u v).result = (t.close w v).result := by
  cases v <;> simp [State.close]

/-- `t` is the end of the operation of `s` on this unit. -/
def Ends (u : UnitName) (s t : State) : Prop := ∃ v : Verdict, v.Proper ∧ t = s.close u v

theorem ends_endOk (u : UnitName) (s : State) (r : Result) : Ends u s (s.endOk u r) := ⟨.done r, trivial, rfl⟩

theorem ends_raiseFailure (u : UnitName) (s : State) {k : ErrKind} (hk : k ≠ .none) (d : Diag) :
    Ends u s (s.raiseFailure u k d) := ⟨.failed k d, hk, rfl⟩

/-- The verdict of a packet is that of the reader alone (R199, R211). -/
theorem conclude_eq_close (reader : FrameReader) (command : Byte) (payload : Bytes) :
    ∃ v : Verdict, v.Proper ∧ ∀ s, conclude reader command payload s = s.close .deframer v := by
  cases reader with
  | packet => exact ⟨.done _, trivial, fun _ => rfl⟩
  | ack expected =>
    by_cases hp : payload.isEmpty = true
    · by_cases hc : command = expected
      · exact ⟨.done .nothing, trivial, fun s => by simp [conclude, hp, hc, State.close]⟩
      · exact ⟨.failed .malformedAck .ackCommand, nofun, fun s => by simp [conclude, hp, hc, State.close]⟩
    · exact ⟨.failed .malformedAck .ackLength, nofun, fun s => by simp [conclude, hp, State.close]⟩

theorem concludeBuffer_eq_close (rd : Reader) (buf : Bytes) :
    ∃ v : Verdict, v.Proper ∧ ∀ s, concludeBuffer rd buf s = s.close .deframer v := by
  cases rd with
  | sequence seq => exact ⟨.done _, trivial, fun _ => rfl⟩
  | frame reader =>
    cases hd : deframe buf with
    | error e => exact ⟨.failed e.1 e.2, deframe_error_kind hd, fun s => by simp [concludeBuffer, hd, State.close]⟩
    | ok packet =>
      obtain ⟨v, hv, hclose⟩ := conclude_eq_close reader packet.1 packet.2
      exact ⟨v, hv, fun s => by simp [concludeBuffer, hd, hclose]⟩

theorem conclude_ends (reader : FrameReader) (command : Byte) (payload : Bytes) (s : State) :
    Ends .deframer s (conclude reader command payload s) := by
  obtain ⟨v, hv, hclose⟩ := conclude_eq_close reader command payload
  exact ⟨v, hv, hclose s⟩

theorem checkCrcByte_ends (reader : FrameReader) (crc : Byte) (s : State) :
    Ends .deframer s (checkCrcByte reader crc s) := by
  unfold checkCrcByte
  split
  · exact conclude_ends reader _ _ s
  · exact ends_raiseFailure _ s (by decide) _

/-! ### An operation as a function -/

/-- The unit an operation runs on (R96). -/
def unitOf : Instr → UnitName
  | .calcCrc _ => .crc
  | .stuff _ _ => .enc
  | .unstuff _ _ => .dec
  | .encodeAndSend _ _ => .framer
  | .sendAck _ => .framer
  | .sendResetSequence => .framer
  | _ => .deframer

/-- All that an operation started in an idle block can see of the state (R20). -/
def SeenAlike (s t : State) : Prop := t.params = s.params ∧ t.rx = s.rx ∧ t.rxGone = s.rxGone

theorem SeenAlike.refl (s : State) : SeenAlike s s := ⟨rfl, rfl, rfl⟩

/-- The reader reads a prefix of what has arrived, and ends or waits; which, and with what, it sees there alone. -/
theorem runReader_effect {rd : Reader} {s s' : State} (h : runReader rd s = .next s') :
    ∃ rest, (∃ read, s.rx = read ++ rest) ∧
      ((∃ v : Verdict, v.Proper ∧ ∀ t, SeenAlike s t → runReader rd t = .next ((t.withRx rest).close .deframer v)) ∨
        (rest = [] ∧ ∃ buf, ∀ t, SeenAlike s t → runReader rd t = .next ((t.withRx []).waiting rd buf))) := by
  obtain ⟨hcomplete, hoverflow, -⟩ := scan_consumes s.params rd s.rx []
  rcases runReader_eq_next h with
    ⟨buf, rest, hscan, -⟩ | ⟨n, rest, hscan, -⟩ | ⟨buf, hscan, hg, -⟩ | ⟨buf, hscan, hg, -⟩
  · obtain ⟨read, hrx, -⟩ := hcomplete buf rest hscan
    obtain ⟨v, hv, hclose⟩ := concludeBuffer_eq_close rd buf
    refine ⟨rest, ⟨read, hrx⟩, .inl ⟨v, hv, fun t ⟨hp, hx, _⟩ => ?_⟩⟩
    rw [runReader_of_complete (by rw [hp, hx]; exact hscan), hclose]
  · obtain ⟨read, b, hrx, -⟩ := hoverflow n rest hscan
    refine ⟨rest, ⟨read ++ [b], by simpa using hrx⟩, .inl ⟨.failed .allocationFailure (.bufLen n), nofun, ?_⟩⟩
    intro t ⟨hp, hx, _⟩
    rw [runReader_of_overflow (by rw [hp, hx]; exact hscan)]
    rfl
  · refine ⟨[], ⟨s.rx, by simp⟩, .inl ⟨.failed .transportFailure .none, nofun, fun t ⟨hp, hx, hr⟩ => ?_⟩⟩
    rw [runReader_of_gone (by rw [hp, hx]; exact hscan) (hr.trans hg)]
    rfl
  · refine ⟨[], ⟨s.rx, by simp⟩, .inr ⟨rfl, buf, fun t ⟨hp, hx, hr⟩ => ?_⟩⟩
    exact runReader_of_dry (by rw [hp, hx]; exact hscan) (hr.trans hg)

/-- The reading operations, as readers. -/
theorem exists_reader {i : Instr}
    (hi : i = .receiveAndDecode ∨ (∃ e, i = .waitAck e) ∨ ∃ seq, i = .readUntilSequence seq) : ∃ rd : Reader, i = rd.instr := by
  rcases hi with rfl | ⟨e, rfl⟩ | ⟨seq, rfl⟩
  · exact ⟨.frame .packet, rfl⟩
  · exact ⟨.frame (.ack e), rfl⟩
  · exact ⟨.sequence seq, rfl⟩

theorem exec_reader_eq (rd : Reader) (s : State) : exec rd.instr s = unlessRefused rd.instr s (runReader rd s) := by
  rcases rd with (_ | _) | _ <;> rfl

/-- What the operation `i` does where it sees what `s` holds: it writes bytes, reads a prefix of what has arrived, and ends
on its unit or waits for more. -/
def HasEffect (i : Instr) (s : State) : Prop :=
  ∃ written rest, (∃ read, s.rx = read ++ rest) ∧
    ((∃ v : Verdict, v.Proper ∧ ∀ t, t.op = none → SeenAlike s t →
        exec i t = .next (((t.writeBytes written).withRx rest).close (unitOf i) v)) ∨
      (written = [] ∧ rest = [] ∧ ∃ rd buf, i = Reader.instr rd ∧ ∀ t, t.op = none → SeenAlike s t →
        exec i t = .next ((t.withRx []).waiting rd buf)))

/-- An operation that reads nothing. -/
theorem hasEffect_of_ends {i : Instr} {s : State} {v : Verdict} (hv : v.Proper) (written : Bytes)
    (hx : ∀ t, t.op = none → SeenAlike s t → exec i t = .next ((t.writeBytes written).close (unitOf i) v)) :
    HasEffect i s := by
  refine ⟨written, s.rx, ⟨[], rfl⟩, .inl ⟨v, hv, fun t ht hst => ?_⟩⟩
  have hsame : (t.writeBytes written).withRx s.rx = t.writeBytes written := by
    rw [State.writeBytes_eq, State.withRx, ← hst.2.1]
  rw [hx t ht hst, hsame]

/-- A reading operation. -/
theorem hasEffect_of_reads {rd : Reader} {s s' : State} (hrun : runReader rd s = .next s')
    (hx : ∀ t, t.op = none → SeenAlike s t → exec rd.instr t = runReader rd t) : HasEffect rd.instr s := by
  have hu : unitOf rd.instr = .deframer := by rcases rd with (_ | _) | _ <;> rfl
  obtain ⟨rest, hread, ⟨v, hv, heff⟩ | ⟨rfl, buf, heff⟩⟩ := runReader_effect hrun
  · exact ⟨[], rest, hread, .inl ⟨v, hv, fun t ht hst => by rw [hx t ht hst, heff t hst, hu]; rfl⟩⟩
  · exact ⟨[], [], hread, .inr ⟨rfl, rfl, rd, buf, rfl, fun t ht hst => by rw [hx t ht hst, heff t hst]⟩⟩

/-- The effect of an operation that answers a next state is determined by what it can see (R20). -/
theorem exec_op_effect {i : Instr} {s s' : State} (hi : i.isOp = true) (h : exec i s = .next s') : HasEffect i s := by
  obtain ⟨hs, ho⟩ := op_eq_none_of_exec hi h
  have ran (t : State) (ht : t.op = none) (hst : SeenAlike s t) {run : Out} : unlessRefused i t run = run :=
    unlessRefused_of_idle ht (by rw [hst.1]; exact ho)
  have reads (rd : Reader) (hrd : rd.instr = i) : HasEffect i s := by
    subst hrd
    have hrun (t : State) (ht : t.op = none) (hst : SeenAlike s t) : exec rd.instr t = runReader rd t :=
      (exec_reader_eq rd t).trans (ran t ht hst)
    exact hasEffect_of_reads ((hrun s hs (.refl s)).symm.trans h) hrun
  cases i with
  | calcCrc payload => exact hasEffect_of_ends (v := .done (.byte (calcCrc payload))) trivial [] fun t ht hst => ran t ht hst
  | stuff input out =>
    exact hasEffect_of_ends (v := .done (.bytes (stuffWith s.params.capRule input))) trivial [] fun t ht hst =>
      (ran t ht hst).trans (by rw [hst.1]; rfl)
  | unstuff input out =>
    cases hu : unstuff input with
    | ok output =>
      exact hasEffect_of_ends (v := .done (.bytes output)) trivial [] fun t ht hst =>
        (ran t ht hst).trans (by rw [hu]; rfl)
    | error r =>
      exact hasEffect_of_ends (v := .failed .invalidEncoding (.cursor r)) nofun [] fun t ht hst =>
        (ran t ht hst).trans (by rw [hu]; rfl)
  | encodeAndSend c p =>
    exact hasEffect_of_ends (v := .done .nothing) trivial (frameOf s.params.capRule c p) fun t ht hst =>
      (ran t ht hst).trans (by rw [hst.1]; rfl)
  | sendAck c => exact hasEffect_of_ends (v := .done .nothing) trivial [c, 0x00] fun t ht hst => ran t ht hst
  | sendResetSequence => exact hasEffect_of_ends (v := .done .nothing) trivial Config.resetSeq fun t ht hst => ran t ht hst
  | receiveAndDecode => exact reads (.frame .packet) rfl
  | waitAck e => exact reads (.frame (.ack e)) rfl
  | readUntilSequence seq => exact reads (.sequence seq) rfl
  | reservedOpsel code => cases h
  | _ => cases hi

/-- The same for the state it was run in. -/
theorem exec_op_eq_next {i : Instr} {s t : State} (hi : i.isOp = true) (h : exec i s = .next t) :
    ∃ written rest, (∃ read, s.rx = read ++ rest) ∧
      (Ends (unitOf i) ((s.writeBytes written).withRx rest) t ∨
        (written = [] ∧ rest = [] ∧ ∃ rd buf, i = Reader.instr rd ∧ t = (s.withRx []).waiting rd buf)) := by
  obtain ⟨hs, -⟩ := op_eq_none_of_exec hi h
  obtain ⟨written, rest, hread, ⟨v, hv, hx⟩ | ⟨rfl, rfl, rd, buf, hrd, hx⟩⟩ := exec_op_effect hi h
  · have ht := h.symm.trans (hx s hs (.refl s))
    exact ⟨written, rest, hread, .inl ⟨v, hv, by simpa using ht⟩⟩
  · have ht := h.symm.trans (hx s hs (.refl s))
    exact ⟨[], [], hread, .inr ⟨rfl, rfl, rd, buf, hrd, by simpa using ht⟩⟩

/-- Settles O42: the effect of the operation is the same in both states. -/
theorem noOperationSeesOldRegisters : Obligations.NoOperationSeesOldRegisters := by
  intro i s t s' hi hs ht hp hx hg h
  have hst : SeenAlike s t := ⟨hp.symm, hx.symm, hg.symm⟩
  obtain ⟨written, rest, -, ⟨v, -, heff⟩ | ⟨rfl, rfl, rd, buf, -, heff⟩⟩ := exec_op_effect hi h
  · obtain rfl : s' = _ := by simpa using h.symm.trans (heff s hs (.refl s))
    refine ⟨_, written, heff t ht hst, by simp, by simp, by simp [State.writeBytes_eq], by simp [State.writeBytes_eq],
      fun _ => State.close_outcome _ _ v _ _, by simp⟩
  · obtain rfl : s' = _ := by simpa using h.symm.trans (heff s hs (.refl s))
    exact ⟨_, [], heff t ht hst, by simp, by simp, by simp, by simp, by simp, by simp⟩

/-- Settles O44: each of the three ends on its own unit, and touches no stream. -/
theorem codecOperationsFrame : Obligations.CodecOperationsFrame := by
  intro i s t h
  have closed (hc : (∃ p, i = .calcCrc p) ∨ (∃ input out, i = .stuff input out) ∨ ∃ input out, i = .unstuff input out) :
      s.op = none ∧ ∃ v, t = s.close (unitOf i) v := by
    rcases hc with ⟨p, rfl⟩ | ⟨input, out, rfl⟩ | ⟨input, out, rfl⟩ <;>
      obtain ⟨hs, hrun⟩ := unlessRefused_eq_next.mp h
    · cases hrun
      exact ⟨(startRefusal_eq_none.mp hs).1, .done _, rfl⟩
    · cases hrun
      exact ⟨(startRefusal_eq_none.mp hs).1, .done _, rfl⟩
    · split at hrun <;> cases hrun
      · exact ⟨(startRefusal_eq_none.mp hs).1, .done _, rfl⟩
      · exact ⟨(startRefusal_eq_none.mp hs).1, .failed _ _, rfl⟩
  refine ⟨fun ⟨p, hi⟩ => ?_, fun ⟨input, out, hi⟩ => ?_, fun ⟨input, out, hi⟩ => ?_, fun hc => ?_⟩
  · obtain ⟨-, v, rfl⟩ := closed (.inl ⟨p, hi⟩)
    simp [hi, unitOf]
  · obtain ⟨-, v, rfl⟩ := closed (.inr (.inl ⟨input, out, hi⟩))
    simp [hi, unitOf]
  · obtain ⟨-, v, rfl⟩ := closed (.inr (.inr ⟨input, out, hi⟩))
    simp [hi, unitOf]
  · obtain ⟨hs, v, rfl⟩ := closed hc
    rcases hc with ⟨p, rfl⟩ | ⟨input, out, rfl⟩ | ⟨input, out, rfl⟩ <;> simp [unitOf, hs]

/-- Settles O46: a reader reads a prefix and ends on the deframer, or waits with nothing left to read. -/
theorem readingOperationsFrame : Obligations.ReadingOperationsFrame := by
  intro i s t hi h
  obtain ⟨rd, rfl⟩ := exists_reader hi
  have hrun := (unlessRefused_eq_next.mp ((exec_reader_eq rd s).symm.trans h)).2
  obtain ⟨rest, hread, ⟨v, -, hx⟩ | ⟨rfl, buf, hx⟩⟩ := runReader_effect hrun
  · obtain rfl : t = _ := by simpa using hrun.symm.trans (hx s (.refl s))
    simpa using hread
  · obtain rfl : t = _ := by simpa using hrun.symm.trans (hx s (.refl s))
    simp

end Sys2Proof.Machine
end

section
/-! PROOFS. What a step leaves unchanged: the parameters and TX but for what is appended (R52), the outcome until the
operation ends (R35), and the frame of the wire elements. -/

namespace Sys2Proof.Machine

/-! ### The outcome -/

def SameOutcome (s t : State) : Prop := t.ok = s.ok ∧ t.err = s.err ∧ t.result = s.result ∧ t.diag = s.diag

/-- The operation, if there is one, goes on with the outcome untouched, or it is over (R35). -/
def GoesOnOrEnds (s t : State) : Prop := (t.op = s.op ∧ SameOutcome s t) ∨ (s.op ≠ none ∧ t.op = none)

theorem GoesOnOrEnds.refl (s : State) : GoesOnOrEnds s s := .inl ⟨rfl, rfl, rfl, rfl, rfl⟩

theorem GoesOnOrEnds.trans {s t u : State} (h : GoesOnOrEnds s t) (h' : GoesOnOrEnds t u) : GoesOnOrEnds s u := by
  rcases h with ⟨ho, hok, herr, hres, hdiag⟩ | ⟨hs, ht⟩
  · rcases h' with ⟨ho', hok', herr', hres', hdiag'⟩ | ⟨ht, hu⟩
    · exact .inl ⟨ho'.trans ho, hok'.trans hok, herr'.trans herr, hres'.trans hres, hdiag'.trans hdiag⟩
    · exact .inr ⟨ho ▸ ht, hu⟩
  · rcases h' with ⟨ho', -⟩ | ⟨ht', -⟩
    · exact .inr ⟨hs, ho'.trans ht⟩
    · exact absurd ht ht'

theorem GoesOnOrEnds.sameOutcome {s t : State} (h : GoesOnOrEnds s t) (hop : t.op ≠ none ∨ s.op = none) :
    SameOutcome s t := by
  rcases h with ⟨-, h⟩ | ⟨hs, ht⟩
  · exact h
  · exact absurd ht (hop.resolve_right hs)

theorem State.op_ne_none_of_activity {s : State} {a : Activity} (h : s.activity = some a) : s.op ≠ none := by
  intro hs
  simp [State.activity, hs] at h

/-! ### Bytes that arrive -/

/-- What every wire element leaves unchanged; what was unread stays at the head of RX. -/
structure WireKeeps (s t : State) : Prop where
  tx : t.tx = s.tx
  params : t.params = s.params
  inputs : t.inputs = s.inputs
  crc : t.crc = s.crc
  enc : t.enc = s.enc
  rxGone : t.rxGone = s.rxGone
  rx : s.rx <+: t.rx
  outcome : GoesOnOrEnds s t
  dfr : (∀ rd, s.activity ≠ some (.read rd)) → t.dfr = s.dfr

/-- Arrival leaves the standalone decoder and the framer too (R240). -/
structure LineKeeps (s t : State) : Prop extends WireKeeps s t where
  dec : t.dec = s.dec
  frm : t.frm = s.frm

theorem LineKeeps.refl (s : State) : LineKeeps s s :=
  ⟨⟨rfl, rfl, rfl, rfl, rfl, rfl, List.prefix_refl _, .refl s, fun _ => rfl⟩, rfl, rfl⟩

theorem GoesOnOrEnds.activity {s t : State} (h : GoesOnOrEnds s t) : t.activity = s.activity ∨ t.activity = none := by
  rcases h with ⟨ho, -⟩ | ⟨-, ho⟩
  · exact .inl (by simp [State.activity, ho])
  · exact .inr (by simp [State.activity, ho])

theorem LineKeeps.trans {s t u : State} (h : LineKeeps s t) (h' : LineKeeps t u) : LineKeeps s u := by
  refine ⟨⟨h'.tx.trans h.tx, h'.params.trans h.params, h'.inputs.trans h.inputs, h'.crc.trans h.crc, h'.enc.trans h.enc,
    h'.rxGone.trans h.rxGone, h.rx.trans h'.rx, h.outcome.trans h'.outcome, fun hr => ?_⟩, h'.dec.trans h.dec,
    h'.frm.trans h.frm⟩
  refine (h'.dfr fun rd => ?_).trans (h.dfr hr)
  rcases h.outcome.activity with ha | ha <;> rw [ha]
  · exact hr rd
  · nofun

/-- The end of a reading operation leaves all that arrival leaves. -/
theorem lineKeeps_of_ends {s t : State} {rd : Reader} (hr : s.activity = some (.read rd)) (h : Ends .deframer s t) :
    LineKeeps s t := by
  obtain ⟨v, -, rfl⟩ := h
  refine ⟨⟨?_, ?_, ?_, ?_, ?_, ?_, ?_, .inr ⟨State.op_ne_none_of_activity hr, ?_⟩, fun hn => absurd hr (hn rd)⟩, ?_, ?_⟩ <;>
    simp

/-- New registers of the deframer of a reading operation, the same. -/
theorem lineKeeps_of_dfr {s : State} {rd : Reader} (hr : s.activity = some (.read rd)) (d : DeframerRegs) :
    LineKeeps s { s with dfr := d } :=
  ⟨⟨rfl, rfl, rfl, rfl, rfl, rfl, List.prefix_refl _, .inl ⟨rfl, rfl, rfl, rfl, rfl⟩, fun hn => absurd hr (hn rd)⟩, rfl, rfl⟩

theorem takeReceived_lineKeeps {s t : State} {rd : Reader} {b : Byte} (hr : s.activity = some (.read rd))
    (h : takeReceived rd b s = .next t) : LineKeeps s t := by
  rcases takeReceived_eq_next h with rfl | ⟨-, rfl⟩ | ⟨-, -, rfl⟩ | ⟨-, -, rfl⟩
  · exact lineKeeps_of_ends hr (ends_raiseFailure _ s (by decide) _)
  · exact lineKeeps_of_dfr hr _
  · exact lineKeeps_of_ends hr (ends_endOk _ s _)
  · exact lineKeeps_of_dfr hr _

theorem arriveByte_lineKeeps {s t : State} {b : Byte} (h : arriveByte b s = .next t) : LineKeeps s t := by
  rcases arriveByte_cases b s with ⟨-, ha⟩ | ⟨-, ⟨rd, hp, ha⟩⟩ | ⟨-, -, ha⟩ <;> rw [ha] at h
  · cases h; exact .refl s
  · exact takeReceived_lineKeeps (State.pendingRead_eq_some_iff.mp hp).1.1 h
  · cases h
    exact ⟨⟨rfl, rfl, rfl, rfl, rfl, rfl, List.prefix_append _ _, .inl ⟨rfl, rfl, rfl, rfl, rfl⟩, fun _ => rfl⟩, rfl, rfl⟩

theorem arrive_lineKeeps {bs : Bytes} {s t : State} (h : arrive bs s = .next t) : LineKeeps s t := by
  induction bs generalizing s with
  | nil => cases h; exact .refl _
  | cons b bs ih =>
    obtain ⟨u, hu, ht⟩ := Out.andThen_eq_next.mp h
    exact (arriveByte_lineKeeps hu).trans (ih ht)

/-! ### Elements of the running decoder, and the CRC byte -/

/-- Where a decoder runs: its operation, and for the deframer's a reading one. -/
theorem State.activity_of_activeDecoder {s : State} {a : ActiveDecoder} (h : s.activeDecoder = some a) :
    (a.home = .standalone ∧ s.activity = some (.dec a.input) ∧ s.dec.phase = .run ∧ a.regs = s.dec) ∨
    (a.home = .deframer ∧ (∃ reader, s.activity = some (.read (.frame reader))) ∧ s.dfr.phase = .unstuff ∧
      a.input = s.dfr.region ∧ a.regs = s.dfr.decoder) := by
  unfold State.activeDecoder at h
  split at h
  next input hact =>
    split at h
    next hphase => cases h; exact .inl ⟨rfl, hact, hphase, rfl⟩
    · cases h
  next reader hact =>
    split at h
    next hphase => cases h; exact .inr ⟨rfl, ⟨reader, hact⟩, hphase, rfl, rfl⟩
    · cases h
  all_goals cases h

theorem applyDecStep_wireKeeps {s t : State} {a : ActiveDecoder} {st : DecStep} (ha : s.activeDecoder = some a)
    (h : applyDecStep a.home st s = .next t) : WireKeeps s t ∧ t.frm = s.frm := by
  rcases State.activity_of_activeDecoder ha with ⟨hhome, hact, -⟩ | ⟨hhome, ⟨reader, hact⟩, -⟩ <;> rw [hhome] at h <;>
    have hop := State.op_ne_none_of_activity hact
  · cases st with
    | outOfPlace => cases h
    | go d =>
      cases h
      exact ⟨⟨rfl, rfl, rfl, rfl, rfl, rfl, List.prefix_refl _, .inl ⟨rfl, rfl, rfl, rfl, rfl⟩, fun _ => rfl⟩, rfl⟩
    | bad r =>
      cases h
      exact ⟨⟨rfl, rfl, rfl, rfl, rfl, rfl, List.prefix_refl _, .inr ⟨hop, rfl⟩, fun _ => rfl⟩, rfl⟩
  · cases st with
    | outOfPlace => cases h
    | go d => cases h; exact ⟨(lineKeeps_of_dfr hact _).toWireKeeps, rfl⟩
    | bad r =>
      cases h
      exact ⟨(lineKeeps_of_ends hact (ends_raiseFailure .deframer s (by decide) _)).toWireKeeps, rfl⟩

theorem takeCode_wireKeeps {code : Byte} {s t : State} (h : takeCode code s = .next t) : WireKeeps s t ∧ t.frm = s.frm := by
  unfold takeCode at h
  split at h
  next a ha => exact applyDecStep_wireKeeps ha h
  next => exact ⟨(arrive_lineKeeps h).toWireKeeps, (arrive_lineKeeps h).frm⟩

theorem execCobsBlock_wireKeeps {code : Byte} {data : Bytes} {s t : State} (h : execCobsBlock code data s = .next t) :
    WireKeeps s t ∧ t.frm = s.frm := by
  unfold execCobsBlock at h
  split at h
  next a ha => exact applyDecStep_wireKeeps ha h
  next => exact ⟨(arrive_lineKeeps h).toWireKeeps, (arrive_lineKeeps h).frm⟩

theorem execCobsData_wireKeeps {b : Byte} {s t : State} (h : execCobsData b s = .next t) :
    WireKeeps s t ∧ t.frm = s.frm := by
  unfold execCobsData at h
  split at h
  next a ha => exact applyDecStep_wireKeeps ha h
  next => exact ⟨(arrive_lineKeeps h).toWireKeeps, (arrive_lineKeeps h).frm⟩

theorem execCrcByte_wireKeeps {crc : Byte} {s t : State} (h : execCrcByte crc s = .next t) :
    WireKeeps s t ∧ t.dec = s.dec := by
  unfold execCrcByte at h
  split at h
  case h_1 =>
    split at h
    · cases h
      exact ⟨⟨rfl, rfl, rfl, rfl, rfl, rfl, List.prefix_refl _, .inl ⟨rfl, rfl, rfl, rfl, rfl⟩, fun _ => rfl⟩, rfl⟩
    · exact ⟨(arrive_lineKeeps h).toWireKeeps, (arrive_lineKeeps h).dec⟩
  case h_2 reader hact =>
    split at h
    · cases h
      have hk := lineKeeps_of_ends hact (checkCrcByte_ends reader crc s)
      exact ⟨hk.toWireKeeps, hk.dec⟩
    · split at h
      · cases h
      · exact ⟨(arrive_lineKeeps h).toWireKeeps, (arrive_lineKeeps h).dec⟩
  all_goals exact ⟨(arrive_lineKeeps h).toWireKeeps, (arrive_lineKeeps h).dec⟩

/-- What a wire element leaves unchanged: but for the framer, all elements but the CRC byte; but for the standalone
decoder, all that are not of a stuffed region. -/
theorem exec_wireKeeps {i : Instr} {s t : State} (hi : i.isOp = false) (h : exec i s = .next t) :
    WireKeeps s t ∧ ((∀ k, i ≠ .crcByte k) → t.frm = s.frm) ∧
      (((∃ c, i = .frameE c) ∨ (∃ c r, i = .frameP c r) ∨ (∃ c, i = .frameCommand c) ∨ i = .frameDelim ∨
        (∃ k, i = .crcByte k) ∨ i = .resetSequence) → t.dec = s.dec) := by
  have line {bs : Bytes} (hl : arrive bs s = .next t) : WireKeeps s t ∧ t.frm = s.frm ∧ t.dec = s.dec :=
    ⟨(arrive_lineKeeps hl).toWireKeeps, (arrive_lineKeeps hl).frm, (arrive_lineKeeps hl).dec⟩
  cases i with
  | frameE c => exact (line h).imp_right fun hk => ⟨fun _ => hk.1, fun _ => hk.2⟩
  | frameP c region => exact (line h).imp_right fun hk => ⟨fun _ => hk.1, fun _ => hk.2⟩
  | frameCommand c => exact (line h).imp_right fun hk => ⟨fun _ => hk.1, fun _ => hk.2⟩
  | frameDelim => exact (line h).imp_right fun hk => ⟨fun _ => hk.1, fun _ => hk.2⟩
  | resetSequence => exact (line h).imp_right fun hk => ⟨fun _ => hk.1, fun _ => hk.2⟩
  | cobsBlock code data => exact (execCobsBlock_wireKeeps h).imp_right fun hk => ⟨fun _ => hk, by simp⟩
  | cobsCodeShort code => exact (takeCode_wireKeeps h).imp_right fun hk => ⟨fun _ => hk, by simp⟩
  | cobsCodeFull => exact (takeCode_wireKeeps h).imp_right fun hk => ⟨fun _ => hk, by simp⟩
  | cobsCodeZero => exact (takeCode_wireKeeps h).imp_right fun hk => ⟨fun _ => hk, by simp⟩
  | cobsData b => exact (execCobsData_wireKeeps h).imp_right fun hk => ⟨fun _ => hk, by simp⟩
  | crcByte crc => exact (execCrcByte_wireKeeps h).imp_right fun hk => ⟨fun hn => absurd rfl (hn crc), fun _ => hk⟩
  | _ => cases hi

/-- The operations that read are those of the three readers. -/
theorem State.activity_ne_read {s : State} (h1 : s.op ≠ some .receiveAndDecode) (h2 : ∀ e, s.op ≠ some (.waitAck e))
    (h3 : ∀ q, s.op ≠ some (.readUntilSequence q)) (rd : Reader) : s.activity ≠ some (.read rd) := by
  intro hact
  obtain ⟨i, hop, hi⟩ := Option.bind_eq_some_iff.mp hact
  cases i with
  | receiveAndDecode => exact h1 hop
  | waitAck e => exact h2 e hop
  | readUntilSequence q => exact h3 q hop
  | _ => cases hi

/-- Settles O47: an element arrives, or is taken by the running decoder, by CHECK or by STUFF. -/
theorem wireElementsFrame : Obligations.WireElementsFrame := by
  intro i s t hi h
  obtain ⟨hk, hfrm, hdec⟩ := exec_wireKeeps hi h
  refine ⟨hk.tx, hk.params, hk.inputs, hk.crc, hk.enc, hk.rxGone, hk.rx, hk.outcome.imp And.left And.right, hfrm, hdec,
    fun h1 h2 h3 => hk.dfr (State.activity_ne_read h1 h2 h3), fun hop => ?_⟩
  exact hk.outcome.sameOutcome ((em (s.op = none)).elim .inr fun hs => .inl (hop ▸ hs))

/-! ### The units' own steps -/

/-- What every step but the first of an operation keeps: the parameters, what is on TX, and the outcome until the end. -/
structure Progress (s t : State) : Prop where
  params : t.params = s.params
  tx : s.tx <+: t.tx
  outcome : GoesOnOrEnds s t

theorem Progress.refl (s : State) : Progress s s := ⟨rfl, List.prefix_refl _, .refl s⟩

theorem WireKeeps.progress {s t : State} (h : WireKeeps s t) : Progress s t :=
  ⟨h.params, h.tx ▸ List.prefix_refl _, h.outcome⟩

theorem progress_of_ends {u : UnitName} {s s' t : State} (hs : s.op ≠ none) (hp : s'.params = s.params)
    (htx : s.tx <+: s'.tx) (h : Ends u s' t) : Progress s t := by
  obtain ⟨v, -, rfl⟩ := h
  exact ⟨by simpa using hp, by simpa using htx, .inr ⟨hs, by simp⟩⟩

theorem progress_of_sameTx {s t : State} (hp : t.params = s.params) (htx : t.tx = s.tx) (hop : t.op = s.op)
    (ho : SameOutcome s t) : Progress s t :=
  ⟨hp, htx ▸ List.prefix_refl _, .inl ⟨hop, ho⟩⟩

theorem progress_writeByte {s t : State} {b : Byte} (hp : t.params = s.params) (htx : t.tx = s.tx ++ [b])
    (hop : t.op = s.op) (ho : SameOutcome s t) : Progress s t :=
  ⟨hp, htx ▸ List.prefix_append _ _, .inl ⟨hop, ho⟩⟩

theorem tickCalcCrc_progress {payload : Bytes} {s t : State} (hs : s.op ≠ none) (h : tickCalcCrc payload s = .next t) :
    Progress s t := by
  unfold tickCalcCrc at h
  split at h
  · cases h
  · split at h <;> cases h
    · exact progress_of_sameTx rfl rfl rfl ⟨rfl, rfl, rfl, rfl⟩
    · exact progress_of_ends hs rfl (List.prefix_refl _) (ends_endOk _ s _)

theorem tickStuff_progress {input : Bytes} {s t : State} (hs : s.op ≠ none) (h : tickStuff input s = .next t) :
    Progress s t := by
  unfold tickStuff at h
  split at h
  · cases h
  · split at h <;> cases h <;> exact progress_of_sameTx rfl rfl rfl ⟨rfl, rfl, rfl, rfl⟩
  · cases h
    exact progress_of_ends hs rfl (List.prefix_refl _) (ends_endOk _ s _)

theorem tickUnstuff_progress {s t : State} (hs : s.op ≠ none) (h : tickUnstuff s = .next t) : Progress s t := by
  unfold tickUnstuff at h
  split at h <;> cases h
  exact progress_of_ends hs rfl (List.prefix_refl _) (ends_endOk _ s _)

theorem tickStuffPhase_progress {payload : Bytes} {s t : State} (h : tickStuffPhase payload s = .next t) :
    Progress s t := by
  unfold tickStuffPhase at h
  split at h
  · cases h; exact progress_writeByte rfl rfl rfl ⟨rfl, rfl, rfl, rfl⟩
  · split at h
    · split at h <;> cases h <;> exact progress_of_sameTx rfl rfl rfl ⟨rfl, rfl, rfl, rfl⟩
    · cases h; exact progress_of_sameTx rfl rfl rfl ⟨rfl, rfl, rfl, rfl⟩
    · cases h; exact progress_of_sameTx rfl rfl rfl ⟨rfl, rfl, rfl, rfl⟩

theorem tickFramer_progress {c : Byte} {payload : Bytes} {s t : State} (hs : s.op ≠ none)
    (h : tickFramer c payload s = .next t) : Progress s t := by
  unfold tickFramer at h
  split at h
  case h_1 => cases h
  case h_2 => cases h
  case h_3 => split at h <;> cases h <;> exact progress_writeByte rfl rfl rfl ⟨rfl, rfl, rfl, rfl⟩
  case h_4 => split at h <;> cases h <;> exact progress_of_sameTx rfl rfl rfl ⟨rfl, rfl, rfl, rfl⟩
  case h_5 => exact tickStuffPhase_progress h
  case h_6 =>
    cases h
    exact progress_of_ends (s' := s.writeByte Config.delim) hs rfl (List.prefix_append _ _) (ends_endOk _ _ _)

theorem tickResync_progress {s t : State} (hs : s.op ≠ none) (h : tickResync s = .next t) : Progress s t := by
  unfold tickResync at h
  split at h
  case h_1 =>
    split at h
    · cases h; exact progress_writeByte rfl rfl rfl ⟨rfl, rfl, rfl, rfl⟩
    next b _ =>
      cases h
      exact progress_of_ends (s' := s.writeByte b) hs rfl (List.prefix_append _ _) (ends_endOk _ _ _)
    · cases h
  all_goals cases h

theorem tickRecv_progress {rd : Reader} {s t : State} (hr : s.activity = some (.read rd)) (h : tickRecv rd s = .next t) :
    Progress s t := by
  unfold tickRecv at h
  split at h
  next b rest _ =>
    have hk := (takeReceived_lineKeeps (s := s.withRx rest) hr h).toWireKeeps.progress
    exact ⟨hk.params, hk.tx, hk.outcome⟩
  next => cases h; exact .refl s
  next =>
    cases h
    exact (lineKeeps_of_ends hr (ends_raiseFailure _ s (by decide) _)).toWireKeeps.progress

theorem tickSplit_progress {reader : FrameReader} {s t : State} (hr : s.activity = some (.read (.frame reader)))
    (h : tickSplit reader s = .next t) : Progress s t := by
  have ended {t : State} (he : Ends .deframer s t) : Progress s t := (lineKeeps_of_ends hr he).toWireKeeps.progress
  unfold tickSplit at h
  split at h
  · cases h
  · split at h <;> cases h
    · exact ended (ends_raiseFailure _ s (by decide) _)
    · exact ended (conclude_ends reader _ _ s)
    · exact (lineKeeps_of_dfr hr _).toWireKeeps.progress

theorem tickUnstuffEnd_progress {rd : Reader} {s t : State} (hr : s.activity = some (.read rd))
    (h : tickUnstuffEnd s = .next t) : Progress s t := by
  unfold tickUnstuffEnd at h
  split at h
  · cases h
  · split at h <;> cases h
    · exact (lineKeeps_of_ends hr (ends_raiseFailure _ s (by decide) _)).toWireKeeps.progress
    · exact (lineKeeps_of_dfr hr _).toWireKeeps.progress

theorem tickCheck_progress {reader : FrameReader} {s t : State} (hr : s.activity = some (.read (.frame reader)))
    (h : tickCheck reader s = .next t) : Progress s t := by
  unfold tickCheck at h
  split at h
  · cases h; exact (lineKeeps_of_dfr hr _).toWireKeeps.progress
  · split at h <;> cases h
    exact (lineKeeps_of_ends hr (checkCrcByte_ends reader _ s)).toWireKeeps.progress

theorem tickDeframer_progress {rd : Reader} {s t : State} (hr : s.activity = some (.read rd))
    (h : tickDeframer rd s = .next t) : Progress s t := by
  unfold tickDeframer at h
  split at h
  case h_1 => exact tickRecv_progress hr h
  case h_2 => exact tickSplit_progress hr h
  case h_3 => exact tickUnstuffEnd_progress hr h
  case h_4 => exact tickCheck_progress hr h
  all_goals cases h

theorem tick_progress {s t : State} (h : tick s = .next t) : Progress s t := by
  unfold tick at h
  split at h
  next => cases h; exact .refl s
  next i hop =>
    have hact : s.activity = activityOf i := by simp [State.activity, hop]
    have hs : s.op ≠ none := by simp [hop]
    split at h
    next => exact tickCalcCrc_progress hs h
    next => exact tickStuff_progress hs h
    next => exact tickUnstuff_progress hs h
    next => exact tickFramer_progress hs h
    next => exact tickResync_progress hs h
    next rd hi => exact tickDeframer_progress (hact.trans hi) h
    next => cases h

/-- The running unit takes only wire elements. -/
theorem State.nextElement_isWire {s : State} {i : Instr} (h : s.nextElement = some i) : i.isOp = false := by
  have decoder {input : Bytes} {d : DecRegs} (hd : d.nextElement input = some i) : i.isOp = false := by
    unfold DecRegs.nextElement at hd
    split at hd
    · obtain ⟨b, -, rfl⟩ := Option.map_eq_some_iff.mp hd
      rfl
    · split at hd
      · cases hd
      next code _ =>
        split at hd <;> cases hd
        · exact (decodeCode_encodesTo code).2.1
        · rfl
  unfold State.nextElement at h
  split at h
  next =>
    split at h
    · exact decoder h
    · cases h
  next =>
    split at h
    · exact decoder h
    · split at h
      · obtain ⟨b, -, rfl⟩ := Option.map_eq_some_iff.mp h
        rfl
      · cases h
  next =>
    split at h <;> cases h
    rfl
  all_goals cases h

theorem advance_progress {s t : State} (h : advance s = .next t) : Progress s t := by
  unfold advance at h
  split at h
  next i hi => exact (exec_wireKeeps (State.nextElement_isWire hi) h).1.progress
  next => exact tick_progress h

/-! ### A step -/

theorem decodeStart_isOp (opsel : BitVec 4) (o : Operands) : (decodeStart opsel o).isOp = true := by
  unfold decodeStart
  split <;> rfl

/-- What one step does: an operation run as a function; a start; a caller's write; the loss of the transport; a reset; or
the arrival of bytes, or the running unit's own step. -/
theorem step_cases {s t : State} (h : step s = .next t) :
    (s.inputs = [] ∧ advance s = .next t) ∨
    ∃ input rest, s.inputs = input :: rest ∧
      ((input = .run ∧ advance { s with inputs := rest } = .next t) ∨
      (∃ opsel o, input = .word (.start opsel o) ∧ exec (decodeStart opsel o) { s with inputs := rest } = .next t) ∨
      (∃ pos bytes i, input = .word (.line pos bytes) ∧ arrive (onLine i) { s with inputs := rest } = .next t) ∨
      (∃ opsel o, input = .launch opsel o ∧ begin (decodeStart opsel o) { s with inputs := rest } = .next t) ∨
      (∃ k b, input = .rewrite k b ∧ t = ({ s with inputs := rest } : State).rewritePayload k b) ∨
      (input = .gone ∧ t = ({ s with inputs := rest } : State).loseTransport) ∨
      (input = .reset ∧ t = ({ s with inputs := rest } : State).blockReset)) := by
  cases hin : s.inputs with
  | nil =>
    simp only [step, hin] at h
    exact .inl ⟨rfl, h⟩
  | cons input rest =>
    simp only [step, hin] at h
    refine .inr ⟨input, rest, rfl, ?_⟩
    cases input with
    | run => exact .inl ⟨rfl, h⟩
    | launch opsel o => exact .inr (.inr (.inr (.inl ⟨opsel, o, rfl, h⟩)))
    | rewrite k b => cases h; exact .inr (.inr (.inr (.inr (.inl ⟨k, b, rfl, rfl⟩))))
    | gone => cases h; exact .inr (.inr (.inr (.inr (.inr (.inl ⟨rfl, rfl⟩)))))
    | reset => cases h; exact .inr (.inr (.inr (.inr (.inr (.inr ⟨rfl, rfl⟩)))))
    | word w =>
      cases w with
      | start opsel o => exact .inr (.inl ⟨opsel, o, rfl, h⟩)
      | line pos bytes =>
        cases hd : decode (.line pos bytes) with
        | error why => simp [runWord, hd] at h
        | ok i =>
          exact .inr (.inr (.inl ⟨pos, bytes, i, rfl, (runWord_line hd _).symm.trans h⟩))

/-- Starting an operation in the step machine (R36). -/
theorem begin_eq_next {i : Instr} {s t : State} (h : begin i s = .next t) :
    s.op = none ∧ operandRefusal s.params i = none ∧ t = s.begun i := by
  obtain ⟨hr, ht⟩ := unlessRefused_eq_next.mp h
  obtain ⟨hs, ho⟩ := startRefusal_eq_none.mp hr
  exact ⟨hs, ho, by simpa using ht.symm⟩

/-- Settles O60: units append, everything else leaves TX; no step writes the parameters. -/
theorem txOnlyGrows : Obligations.TxOnlyGrows := by
  intro s t h
  rcases step_cases h with ⟨-, h⟩ | ⟨input, rest, -, ⟨-, h⟩ | ⟨opsel, o, -, h⟩ | ⟨pos, bytes, i, -, h⟩ | ⟨opsel, o, -, h⟩ |
    ⟨k, b, -, rfl⟩ | ⟨-, rfl⟩ | ⟨-, rfl⟩⟩
  · exact ⟨(advance_progress h).tx, (advance_progress h).params⟩
  · exact ⟨(advance_progress h).tx, (advance_progress h).params⟩
  · obtain ⟨written, arrived, -, ⟨v, -, rfl⟩ | ⟨-, -, rd, buf, -, rfl⟩⟩ := exec_op_eq_next (decodeStart_isOp opsel o) h
    · simp [State.writeBytes_eq]
    · simp
  · have hk := (arrive_lineKeeps h).toWireKeeps.progress
    exact ⟨hk.tx, hk.params⟩
  · obtain ⟨-, -, rfl⟩ := begin_eq_next h
    simp
  all_goals simp

/-- Settles O43: units go on or end, an operation run as a function ends or waits with the outcome untouched. -/
theorem flagsWrittenOnlyAtTheEnd : Obligations.FlagsWrittenOnlyAtTheEnd := by
  intro s t h hop
  have hrun : t.op ≠ none ∨ s.op = none := hop.imp_right And.left
  rcases step_cases h with ⟨-, h⟩ | ⟨input, rest, hin, ⟨-, h⟩ | ⟨opsel, o, rfl, h⟩ | ⟨pos, bytes, i, -, h⟩ |
    ⟨opsel, o, -, h⟩ | ⟨k, b, -, rfl⟩ | ⟨-, rfl⟩ | ⟨rfl, rfl⟩⟩
  · exact (advance_progress h).outcome.sameOutcome hrun
  · exact (advance_progress h).outcome.sameOutcome hrun
  · have hgoes : t.op ≠ none := hop.resolve_right fun hidle => hidle.2.1 opsel o rest hin
    obtain ⟨written, arrived, -, ⟨v, -, rfl⟩ | ⟨-, -, rd, buf, -, rfl⟩⟩ := exec_op_eq_next (decodeStart_isOp opsel o) h
    · simp at hgoes
    · simp
  · exact (arrive_lineKeeps h).outcome.sameOutcome hrun
  · obtain ⟨-, -, rfl⟩ := begin_eq_next h
    simp
  · simp
  · simp
  · rcases hop with hop | ⟨-, -, hnot⟩
    · simp at hop
    · exact absurd hin (hnot rest)

end Sys2Proof.Machine
end

section
/-! PROOFS. The invariant of the machine (R20, R34, R38, R56, R117, R131, R174): it holds after reset, every step keeps it,
and under it no unit faults or meets an element out of its place. -/

namespace Sys2Proof.Machine

/-! ### The invariant, taken apart -/

/-- Every unit is at its reset values (R38). -/
def AllReset (s : State) : Prop :=
  s.crc = CrcRegs.reset ∧ s.enc = EncRegs.reset ∧ s.dec = DecRegs.reset ∧ s.frm = FramerRegs.reset ∧
    s.dfr = DeframerRegs.reset

/-- A release puts a unit at its reset values. -/
theorem AllReset.release {s : State} (u : UnitName) (h : AllReset s) : AllReset (s.release u) := by
  obtain ⟨hcrc, henc, hdec, hfrm, hdfr⟩ := h
  cases u with
  | crc => exact ⟨rfl, henc, hdec, hfrm, hdfr⟩
  | enc => exact ⟨hcrc, rfl, hdec, hfrm, hdfr⟩
  | dec => exact ⟨hcrc, henc, rfl, hfrm, hdfr⟩
  | framer => exact ⟨hcrc, henc, hdec, rfl, hdfr⟩
  | deframer => exact ⟨hcrc, henc, hdec, hfrm, rfl⟩

/-- The unit of an activity. -/
def Activity.unit : Activity → UnitName
  | .crc _ => .crc
  | .enc _ => .enc
  | .dec _ => .dec
  | .send _ _ => .framer
  | .resync => .framer
  | .read _ => .deframer

/-- The running unit is legally in the middle of its operation. -/
def unitGood (s : State) : Activity → Bool
  | .crc payload => crcGood payload s.crc
  | .enc input => encUnitGood s.params.capRule input s.enc
  | .dec input => decGood input s.dec
  | .send _ payload => framerGood s.params.capRule payload s.frm
  | .resync => resyncGood s.frm
  | .read rd => deframerGood s.params rd s.dfr

theorem inv_of_idle {s : State} (hs : s.op = none) : s.inv = true ↔ AllReset s ∧ outcomeGood s = true := by
  have ha : s.activity = none := by simp [State.activity, hs]
  simp [State.inv, unitsGood, ha, hs, AllReset, and_assoc]

theorem inv_of_activity {s : State} {a : Activity} (ha : s.activity = some a) :
    s.inv = true ↔ unitGood s a = true ∧ AllReset (s.release a.unit) ∧ outcomeGood s = true := by
  cases a <;> simp [State.inv, unitsGood, ha, AllReset, unitGood, Activity.unit, and_assoc]

/-- Under the invariant a block without activity is idle. -/
theorem op_eq_none_of_inv {s : State} (h : s.inv = true) (ha : s.activity = none) : s.op = none := by
  have hu : unitsGood s = true := (Bool.and_eq_true_iff.mp h).1
  simp only [unitsGood, ha, Bool.and_eq_true, Option.isNone_iff_eq_none] at hu
  exact hu.1.1.1.1.1

theorem outcomeGood_congr {s t : State} (h : SameOutcome s t) : outcomeGood t = outcomeGood s := by
  obtain ⟨hok, herr, hres, -⟩ := h
  simp [outcomeGood, hok, herr, hres]

theorem outcomeGood_close (u : UnitName) {v : Verdict} (hv : v.Proper) (s : State) :
    outcomeGood (s.close u v) = true := by
  cases v with
  | done r => simp [State.close, outcomeGood]
  | failed k d =>
    have hk : (k == ErrKind.none) = false := beq_eq_false_iff_ne.mpr hv
    simp [State.close, outcomeGood, hk]

/-- The end of an operation meets the invariant: its unit is released, the others were at their reset values. -/
theorem inv_of_ends {u : UnitName} {s t : State} (hr : AllReset (s.release u)) (h : Ends u s t) : t.inv = true := by
  obtain ⟨v, hv, rfl⟩ := h
  exact (inv_of_idle (State.close_op u v s)).mpr ⟨by simpa [AllReset] using hr, outcomeGood_close u hv s⟩

/-- A step that goes on meets the invariant if the unit's registers are legal and the other units are untouched. -/
theorem inv_of_unitGood {s t : State} {a : Activity} (hs : s.inv = true) (ha : s.activity = some a) (hop : t.op = s.op)
    (ho : SameOutcome s t) (hr : t.release a.unit = { s.release a.unit with tx := t.tx, rx := t.rx, rxGone := t.rxGone })
    (hg : unitGood t a = true) : t.inv = true := by
  obtain ⟨-, hreset, houtcome⟩ := (inv_of_activity ha).mp hs
  have hat : t.activity = some a := by rw [← ha, State.activity, hop]; rfl
  refine (inv_of_activity hat).mpr ⟨hg, ?_, (outcomeGood_congr ho).trans houtcome⟩
  rw [hr]
  exact hreset

/-- What a step may answer in a state that meets the invariant: a state that meets it, or a refusal, but not of an element
out of its place. -/
def Good (o : Out) : Prop :=
  match o with
  | .next t => t.inv = true
  | .fault _ => False
  | .refused r => r ≠ .elementOutOfPlace

theorem good_andThen {o : Out} {k : State → Out} (ho : Good o) (hk : ∀ s, s.inv = true → Good (k s)) :
    Good (o.andThen k) := by
  cases o with
  | next s => exact hk s ho
  | fault f => exact ho
  | refused r => exact ho

/-! ### The start of an operation -/

theorem lengthRefusal_ne (p : Config.Params) (bs : Bytes) : lengthRefusal p bs ≠ some .elementOutOfPlace := by
  unfold lengthRefusal; split <;> nofun

theorem bufferRefusal_ne (out : OutBuf) (n : Nat) : bufferRefusal out n ≠ some .elementOutOfPlace := by
  unfold bufferRefusal
  split
  · nofun
  · split <;> nofun

theorem or_ne_some {a b : Option Refusal} {r : Refusal} (ha : a ≠ some r) (hb : b ≠ some r) : a.or b ≠ some r := by
  cases a with
  | none => exact hb
  | some x => exact ha

theorem operandRefusal_ne (p : Config.Params) (i : Instr) : operandRefusal p i ≠ some .elementOutOfPlace := by
  cases i with
  | calcCrc payload => exact lengthRefusal_ne p payload
  | encodeAndSend c payload => exact lengthRefusal_ne p payload
  | stuff input out => exact or_ne_some (lengthRefusal_ne p input) (bufferRefusal_ne out _)
  | unstuff input out =>
    refine or_ne_some (lengthRefusal_ne p input) ?_
    split <;> exact bufferRefusal_ne out _
  | readUntilSequence seq =>
    show (if seq.isEmpty then some Refusal.emptySequence else lengthRefusal p seq) ≠ _
    split
    · nofun
    · exact lengthRefusal_ne p seq
  | _ => nofun

theorem good_unlessRefused {i : Instr} {s : State} {run : Out}
    (h : s.op = none → operandRefusal s.params i = none → Good run) : Good (unlessRefused i s run) := by
  unfold unlessRefused
  cases hr : startRefusal i s with
  | none =>
    obtain ⟨hs, ho⟩ := startRefusal_eq_none.mp hr
    exact h hs ho
  | some r =>
    rintro rfl
    unfold startRefusal at hr
    split at hr
    · cases hr
    · exact operandRefusal_ne _ _ hr

/-! ### CRC and encoder registers -/

theorem crcGood_iff {payload : Bytes} {r : CrcRegs} :
    crcGood payload r = true ↔ r.phase = .run ∧ r.i ≤ payload.length ∧ r.acc = calcCrc (payload.take r.i) := by
  simp [crcGood, and_assoc]

theorem crcGood_start (payload : Bytes) : crcGood payload CrcRegs.start = true :=
  crcGood_iff.mpr ⟨rfl, Nat.zero_le _, by simp [CrcRegs.start, calcCrc]⟩

/-- `CRC_BYTE` answers exactly while a byte is left (R117). -/
theorem takeByte_cases (payload : Bytes) (r : CrcRegs) :
    (∃ h : r.i < payload.length,
      r.takeByte payload = some { r with acc := crcByte r.acc payload[r.i], i := r.i + 1 }) ∨
    (payload.length ≤ r.i ∧ r.takeByte payload = none) := by
  unfold CrcRegs.takeByte
  by_cases h : r.i < payload.length
  · exact .inl ⟨h, by simp [h]⟩
  · exact .inr ⟨Nat.not_lt.mp h, by simp [Nat.not_lt.mp h]⟩

theorem calcCrc_take_succ {payload : Bytes} {i : Nat} (h : i < payload.length) :
    calcCrc (payload.take (i + 1)) = crcByte (calcCrc (payload.take i)) payload[i] := by
  rw [← calcCrc_append, List.take_append_getElem]

theorem crcGood_takeByte {payload : Bytes} {r : CrcRegs} (hg : crcGood payload r = true) (h : r.i < payload.length) :
    crcGood payload { r with acc := crcByte r.acc payload[r.i], i := r.i + 1 } = true := by
  obtain ⟨hphase, -, hacc⟩ := crcGood_iff.mp hg
  exact crcGood_iff.mpr ⟨hphase, h, by rw [hacc, calcCrc_take_succ h]⟩

/-- Legality of the block is a matter of code and data alone. -/
theorem encGood_congr {rule : Config.CapRule} {r q : EncRegs} (hc : q.code = r.code) (hb : q.blk = r.blk) :
    encGood rule q = encGood rule r := by
  simp [encGood, hc, hb]

theorem encUnitGood_iff {rule : Config.CapRule} {input : Bytes} {r : EncRegs} : encUnitGood rule input r = true ↔
    r.phase ≠ .idle ∧ encGood rule r = true ∧ r.i ≤ input.length ∧
      r.out ++ encodeFrom rule r (input.drop r.i) = stuffWith rule input := by
  simp [encUnitGood, and_assoc]

/-- Registers with the block of `r` are legal if `r` is and what is out and to come makes the result. -/
theorem encUnitGood_of {rule : Config.CapRule} {input : Bytes} {r q : EncRegs} (hphase : q.phase ≠ .idle)
    (hgood : encGood rule r = true) (hc : q.code = r.code) (hb : q.blk = r.blk) (hi : q.i ≤ input.length)
    (hout : q.out ++ encodeFrom rule r (input.drop q.i) = stuffWith rule input) : encUnitGood rule input q = true :=
  encUnitGood_iff.mpr ⟨hphase, (encGood_congr hc hb).trans hgood, hi, by rw [encodeFrom_congr rule hc hb, hout]⟩

theorem encUnitGood_start (rule : Config.CapRule) (input : Bytes) : encUnitGood rule input EncRegs.start = true :=
  encUnitGood_iff.mpr ⟨nofun, encGood_start rule, Nat.zero_le _, rfl⟩

/-- `ENC_BYTE` is not the end of the encoder's pass. -/
theorem EncRegs.byte_phase (rule : Config.CapRule) (b : Byte) (r : EncRegs) : (r.byte rule b).1.phase = r.phase := by
  cases rule with
  | literal =>
    simp only [EncRegs.byte, EncRegs.byteLiteral]
    split <;> split <;> rfl
  | closeOnFill =>
    simp only [EncRegs.byte, EncRegs.byteCloseOnFill]
    split
    · rfl
    · split <;> rfl

/-- After `ENC_BYTE` what is out and what is to come still make the result (R133). -/
theorem encUnitGood_byte {rule : Config.CapRule} {input : Bytes} {r : EncRegs} (hg : encUnitGood rule input r = true)
    (h : r.i < input.length) :
    encUnitGood rule input { (r.byte rule input[r.i]).1 with
      out := r.out ++ (r.byte rule input[r.i]).2, i := r.i + 1 } = true := by
  obtain ⟨hphase, hgood, -, hout⟩ := encUnitGood_iff.mp hg
  rw [List.drop_eq_getElem_cons h, encodeFrom, ← List.append_assoc] at hout
  exact encUnitGood_of (by simpa [EncRegs.byte_phase] using hphase) (encGood_byte hgood _) rfl rfl h hout

/-! ### Decoder registers -/

theorem decGood_iff {input : Bytes} {d : DecRegs} : decGood input d = true ↔
    d.phase = .run ∧ d.r ≤ input.length ∧ d.out.length ≤ d.r + d.got ∧
      (d.code = none → d.got = 0) ∧
      (∀ c, d.code = some c → d.got + 2 ≤ c.toNat ∧ d.r + c.toNat ≤ input.length) := by
  cases hc : d.code <;> simp [decGood, hc, and_assoc]

theorem decGood_start (input : Bytes) : decGood input DecRegs.start = true :=
  decGood_iff.mpr ⟨rfl, Nat.zero_le _, Nat.le_refl _, fun _ => rfl, nofun⟩

theorem length_reinserted_le (n r : Nat) (code : Byte) : (reinserted n r code).length ≤ 1 := by
  unfold reinserted; split <;> simp

/-- A block that fits and is complete leaves the output inside what was read (R156). -/
theorem decGood_completeBlock {input : Bytes} {d : DecRegs} {code : Byte} (hphase : d.phase = .run)
    (hfit : d.r + code.toNat ≤ input.length) (hout : d.out.length + 1 ≤ d.r + code.toNat) :
    decGood input (d.completeBlock input.length code) = true := by
  have := length_reinserted_le input.length (d.r + code.toNat) code
  refine decGood_iff.mpr ⟨hphase, hfit, ?_, fun _ => rfl, nofun⟩
  simp only [DecRegs.completeBlock, List.length_append]
  omega

/-! ### The running unit's own step, unit by unit -/

theorem advance_of_element {i : Instr} {s : State} (h : s.nextElement = some i) : advance s = exec i s := by
  simp [advance, h]

theorem advance_of_crc {s : State} {payload : Bytes} (ha : s.activity = some (.crc payload)) :
    advance s = tickCalcCrc payload s := by
  obtain ⟨i, hop, hi⟩ := Option.bind_eq_some_iff.mp ha
  simp [advance, State.nextElement, ha, tick, hop, hi]

theorem advance_of_enc {s : State} {input : Bytes} (ha : s.activity = some (.enc input)) :
    advance s = tickStuff input s := by
  obtain ⟨i, hop, hi⟩ := Option.bind_eq_some_iff.mp ha
  simp [advance, State.nextElement, ha, tick, hop, hi]

theorem advance_of_dec {s : State} {input : Bytes} (ha : s.activity = some (.dec input)) (hn : s.nextElement = none) :
    advance s = tickUnstuff s := by
  obtain ⟨i, hop, hi⟩ := Option.bind_eq_some_iff.mp ha
  simp [advance, hn, tick, hop, hi]

theorem advance_of_resync {s : State} (ha : s.activity = some .resync) : advance s = tickResync s := by
  obtain ⟨i, hop, hi⟩ := Option.bind_eq_some_iff.mp ha
  simp [advance, State.nextElement, ha, tick, hop, hi]

theorem advance_of_read {s : State} {rd : Reader} (ha : s.activity = some (.read rd)) (hn : s.nextElement = none) :
    advance s = tickDeframer rd s := by
  obtain ⟨i, hop, hi⟩ := Option.bind_eq_some_iff.mp ha
  simp [advance, hn, tick, hop, hi]

/-- A reading operation takes elements in UNSTUFF and at the end of CHECK only. -/
theorem State.nextElement_of_read {s : State} {rd : Reader} (ha : s.activity = some (.read rd))
    (hphase : s.dfr.phase ≠ .unstuff) (hat : s.dfr.atCrcByte = false) : s.nextElement = none := by
  cases rd <;> simp [State.nextElement, ha, hphase, hat]

theorem DeframerRegs.atCrcByte_of_ne {d : DeframerRegs} (h : d.phase ≠ .check) : d.atCrcByte = false := by
  simp [DeframerRegs.atCrcByte, h]

theorem advance_of_recv {s : State} {rd : Reader} (hr : s.receives rd) : advance s = tickRecv rd s := by
  obtain ⟨ha, hphase⟩ := hr
  have hn := State.nextElement_of_read ha (by simp [hphase]) (DeframerRegs.atCrcByte_of_ne (by simp [hphase]))
  simp only [advance_of_read ha hn, tickDeframer, hphase]

/-- At the end of CHECK the element is the last decoded byte (R198). -/
theorem advance_of_crcByte {s : State} {reader : FrameReader} (ha : s.activity = some (.read (.frame reader)))
    (hphase : s.dfr.phase = .check) (hat : s.dfr.atCrcByte = true) (hne : s.dfr.rxDec ≠ []) :
    advance s = .next (checkCrcByte reader (s.dfr.rxDec.getLast hne) s) := by
  simp [advance, State.nextElement, ha, hphase, hat, List.getLast?_eq_some_getLast hne, exec, execCrcByte]

/-- The framer's element, the CRC byte, is what its own step in STUFF would take: a step of a send is one of its unit. -/
theorem advance_of_send {s : State} {c : Byte} {payload : Bytes} (ha : s.activity = some (.send c payload)) :
    advance s = tickFramer c payload s := by
  obtain ⟨i, hop, hi⟩ := Option.bind_eq_some_iff.mp ha
  cases hat : s.frm.atCrcByte payload with
  | false => simp [advance, State.nextElement, ha, hat, tick, hop, hi]
  | true =>
    obtain ⟨⟨⟨hphase, hflush⟩, henc⟩, hend⟩ : ((s.frm.phase = .stuff ∧ s.frm.flush = []) ∧ s.frm.enc.phase = .run) ∧
        payload.length ≤ s.frm.i := by
      simpa [FramerRegs.atCrcByte] using hat
    simp [advance, State.nextElement, ha, hat, exec, execCrcByte, tickFramer, hphase, tickStuffPhase, hflush, henc, hend]

/-! ### The running decoder's own step -/

/-- A block of a legal code, taken whole (R151). -/
def DecRegs.takeBlock (input : Bytes) (code : Byte) (d : DecRegs) : DecRegs :=
  ({ d with out := d.out ++ (input.drop (d.r + 1)).take (code.toNat - 1) } : DecRegs).completeBlock input.length code

theorem State.activeDecoder_of_unstuff {s : State} {reader : FrameReader}
    (ha : s.activity = some (.read (.frame reader))) (hphase : s.dfr.phase = .unstuff) :
    s.activeDecoder = some { home := .deframer, input := s.dfr.region, regs := s.dfr.decoder } := by
  simp [State.activeDecoder, ha, hphase]

theorem State.nextElement_of_active {s : State} {a : ActiveDecoder} (ha : s.activeDecoder = some a) :
    s.nextElement = a.regs.nextElement a.input := by
  rcases State.activity_of_activeDecoder ha with ⟨-, hact, hphase, hregs⟩ | ⟨-, ⟨reader, hact⟩, hphase, hin, hregs⟩
  · simp [State.nextElement, hact, hphase, hregs]
  · simp [State.nextElement, hact, hphase, hin, hregs]

/-- A code byte is taken in whichever way its value is encoded. -/
theorem exec_decodeCode (code : Byte) (s : State) : exec (decodeCode code) s = takeCode code s := by
  unfold decodeCode
  split
  next h => rw [h]; rfl
  next =>
    split
    next h => rw [h]; rfl
    next => rfl

section
variable {s : State} {a : ActiveDecoder} {code : Byte}

theorem advance_of_badBlock (ha : s.activeDecoder = some a) (hc : a.regs.code = none)
    (hcode : a.input[a.regs.r]? = some code) (hb : badBlock a.input.length a.regs.r code = true) :
    advance s = applyDecStep a.home (.bad a.regs.r) s := by
  have hn : s.nextElement = some (decodeCode code) := by
    simp [State.nextElement_of_active ha, DecRegs.nextElement, hc, hcode, hb]
  rw [advance_of_element hn, exec_decodeCode, takeCode_of_active ha, DecRegs.openBlock_of_bad hc hb]

theorem advance_of_block (ha : s.activeDecoder = some a) (hc : a.regs.code = none)
    (hcode : a.input[a.regs.r]? = some code) (hb : badBlock a.input.length a.regs.r code = false) :
    advance s = applyDecStep a.home (.go (a.regs.takeBlock a.input code)) s := by
  obtain ⟨hne, hfit⟩ := badBlock_eq_false.mp hb
  have hpos : code.toNat ≠ 0 := fun h => hne (BitVec.eq_of_toNat_eq h)
  have hlen : ((a.input.drop (a.regs.r + 1)).take (code.toNat - 1)).length + 1 = code.toNat := by
    simp only [List.length_take, List.length_drop]; omega
  have hn : s.nextElement = some (.cobsBlock code ((a.input.drop (a.regs.r + 1)).take (code.toNat - 1))) := by
    simp [State.nextElement_of_active ha, DecRegs.nextElement, hc, hcode, hb]
  rw [advance_of_element hn, exec_cobsBlock_of_active ha, DecRegs.block_of_fits hc hlen hfit, DecRegs.takeBlock]

/-- The element that a decoder in the middle of its operation takes next is in its place: it fails or goes on legally. And
only between blocks is there none. -/
theorem decoder_advance (hg : decGood a.input a.regs = true) (ha : s.activeDecoder = some a) :
    (s.nextElement = none ∧ a.regs.code = none) ∨
    ∃ st, advance s = applyDecStep a.home st s ∧ (st = .bad a.regs.r ∨ ∃ d, st = .go d ∧ decGood a.input d = true) := by
  obtain ⟨hphase, hr, hout, hnone, hsome⟩ := decGood_iff.mp hg
  have hnext := State.nextElement_of_active ha
  cases hc : a.regs.code with
  | some c =>
    obtain ⟨hgot, hfit⟩ := hsome c hc
    have hin : a.regs.r + 1 + a.regs.got < a.input.length := by omega
    have hn : s.nextElement = some (.cobsData a.input[a.regs.r + 1 + a.regs.got]) := by
      simp [hnext, DecRegs.nextElement, hc, hin]
    refine .inr ⟨_, (advance_of_element hn).trans (exec_cobsData_of_active ha _), .inr ?_⟩
    by_cases hlast : c.toNat = a.regs.got + 2
    · exact ⟨_, DecRegs.dataByte_of_last hc _ _ hlast, decGood_completeBlock hphase hfit (by simp; omega)⟩
    · refine ⟨_, DecRegs.dataByte_of_more hc _ _ (by omega), decGood_iff.mpr ⟨hphase, hr, ?_, ?_, ?_⟩⟩
      · simp only [List.length_append, List.length_singleton]; omega
      · simp [hc]
      · intro c' hc'
        obtain rfl : c = c' := Option.some.inj (hc.symm.trans hc')
        exact ⟨by simp only; omega, hfit⟩
  | none =>
    cases hcode : a.input[a.regs.r]? with
    | none => exact .inl ⟨by simp [hnext, DecRegs.nextElement, hc, hcode], rfl⟩
    | some code =>
      cases hb : badBlock a.input.length a.regs.r code with
      | true => exact .inr ⟨_, advance_of_badBlock ha hc hcode hb, .inl rfl⟩
      | false =>
        obtain ⟨hne, hfit⟩ := badBlock_eq_false.mp hb
        have hpos : code.toNat ≠ 0 := fun h => hne (BitVec.eq_of_toNat_eq h)
        have hgot := hnone hc
        refine .inr ⟨_, advance_of_block ha hc hcode hb, .inr ⟨_, rfl, decGood_completeBlock hphase hfit ?_⟩⟩
        simp only [List.length_append, List.length_take, List.length_drop]
        omega

end

/-! ### Framer registers -/

/-- A framer in STUFF, as a proposition (R172). -/
theorem framerGood_stuff {rule : Config.CapRule} {payload : Bytes} {f : FramerRegs} (h : f.phase = .stuff) :
    framerGood rule payload f = true ↔
      payload ≠ [] ∧ f.i ≤ payload.length ∧ encGood rule f.enc = true ∧ noDelim f.flush = true := by
  simp [framerGood, h, and_assoc]

theorem framerGood_of_stuff {rule : Config.CapRule} {payload : Bytes} {f : FramerRegs} (h : f.phase = .stuff)
    (hd : payload ≠ [] ∧ f.i ≤ payload.length ∧ encGood rule f.enc = true ∧ noDelim f.flush = true) :
    framerGood rule payload f = true :=
  (framerGood_stuff h).mpr hd

theorem framerGood_crc {rule : Config.CapRule} {payload : Bytes} {f : FramerRegs} (h : f.phase = .crc) :
    framerGood rule payload f = true ↔
      payload ≠ [] ∧ f.crc.phase = .run ∧ f.crc.i ≤ payload.length ∧ f.flush = [] := by
  simp [framerGood, h, and_assoc]

theorem framerGood_of_crc {rule : Config.CapRule} {payload : Bytes} {f : FramerRegs} (h : f.phase = .crc)
    (hd : payload ≠ [] ∧ f.crc.phase = .run ∧ f.crc.i ≤ payload.length ∧ f.flush = []) :
    framerGood rule payload f = true :=
  (framerGood_crc h).mpr hd

/-- A payload of the same length changes nothing for the framer's legality (R54). -/
theorem framerGood_set (rule : Config.CapRule) (payload : Bytes) (f : FramerRegs) (k : Nat) (b : Byte) :
    framerGood rule (payload.set k b) f = framerGood rule payload f := by
  have he : (payload.set k b).isEmpty = payload.isEmpty := by
    rw [Bool.eq_iff_iff, List.isEmpty_iff, List.isEmpty_iff, ← List.length_eq_zero_iff, List.length_set,
      List.length_eq_zero_iff]
  simp only [framerGood, List.length_set, he]

section
variable {s : State} {c : Byte} {payload : Bytes}

theorem good_framer (hs : s.inv = true) (ha : s.activity = some (.send c payload)) {f : FramerRegs}
    {tx : Bytes} (hf : framerGood s.params.capRule payload f = true) : Good (.next { s with frm := f, tx := tx }) :=
  inv_of_unitGood hs ha rfl ⟨rfl, rfl, rfl, rfl⟩ rfl hf

theorem good_tickStuffPhase (hs : s.inv = true) (ha : s.activity = some (.send c payload)) (hphase : s.frm.phase = .stuff)
    (hg : framerGood s.params.capRule payload s.frm = true) : Good (tickStuffPhase payload s) := by
  obtain ⟨hne, hi, henc, hflush⟩ := (framerGood_stuff hphase).mp hg
  unfold tickStuffPhase
  split
  next b rest hfl =>
    have hrest : noDelim rest = true := by
      rw [hfl, noDelim_cons, Bool.and_eq_true] at hflush
      exact hflush.2
    exact good_framer hs ha (framerGood_of_stuff hphase ⟨hne, hi, henc, hrest⟩)
  next =>
    split
    next =>
      split
      next b hb =>
        have hlt : s.frm.i < payload.length := (List.getElem?_eq_some_iff.mp hb).1
        exact good_framer hs ha
          (framerGood_of_stuff hphase ⟨hne, hlt, encGood_byte henc b, noDelim_byte henc b⟩)
      next =>
        have henc' := (encGood_congr rfl rfl).trans (encGood_byte henc s.frm.frmCrc)
        exact good_framer hs ha (framerGood_of_stuff hphase ⟨hne, hi, henc', noDelim_byte henc _⟩)
    next =>
      have henc' := (encGood_congr rfl rfl).trans (encGood_close s.params.capRule s.frm.enc)
      exact good_framer hs ha (framerGood_of_stuff hphase ⟨hne, hi, henc', noDelim_close henc⟩)
    next => exact good_framer hs ha (by simp [framerGood, ‹s.frm.flush = []›])

theorem good_tickFramer (hs : s.inv = true) (ha : s.activity = some (.send c payload)) :
    Good (tickFramer c payload s) := by
  obtain ⟨hg, hreset, -⟩ := (inv_of_activity ha).mp hs
  replace hg : framerGood s.params.capRule payload s.frm = true := hg
  unfold tickFramer
  split
  next hphase => simp [framerGood, hphase] at hg
  next hphase => simp [framerGood, hphase] at hg
  next hphase =>
    have hstart : s.frm = FramerRegs.start := by simpa [framerGood, hphase] using hg
    split
    next => exact good_framer hs ha (by simp [framerGood, hstart, FramerRegs.start, FramerRegs.reset])
    next hne =>
      exact good_framer hs ha
        (framerGood_of_crc rfl ⟨by simpa using hne, rfl, Nat.zero_le _, by rw [hstart]; rfl⟩)
  next hphase =>
    obtain ⟨hne, hrun, hi, hflush⟩ := (framerGood_crc hphase).mp hg
    rcases takeByte_cases payload s.frm.crc with ⟨hlt, htake⟩ | ⟨-, htake⟩ <;> simp only [htake]
    · exact good_framer hs ha (framerGood_of_crc hphase ⟨hne, hrun, hlt, hflush⟩)
    · exact good_framer hs ha
        (framerGood_of_stuff rfl ⟨hne, Nat.zero_le _, encGood_start _, rfl⟩)
  next hphase => exact good_tickStuffPhase hs ha hphase hg
  next => exact inv_of_ends (s := s.writeByte Config.delim) hreset (ends_endOk _ _ _)

end

theorem resyncGood_iff {f : FramerRegs} :
    resyncGood f = true ↔ f.phase = .resync ∧ f.flush ≠ [] ∧ f.flush <:+ Config.resetSeq := by
  simp [resyncGood, and_assoc, List.suffix_iff_eq_drop]

theorem good_tickResync {s : State} (hs : s.inv = true) (ha : s.activity = some .resync) : Good (tickResync s) := by
  obtain ⟨hg, hreset, -⟩ := (inv_of_activity ha).mp hs
  obtain ⟨hphase, hne, hsuffix⟩ := resyncGood_iff.mp hg
  unfold tickResync
  simp only [hphase]
  split
  next b x rest hfl =>
    have hrest : x :: rest <:+ Config.resetSeq := (List.suffix_cons b _).trans (hfl ▸ hsuffix)
    exact inv_of_unitGood hs ha rfl ⟨rfl, rfl, rfl, rfl⟩ rfl
      (resyncGood_iff.mpr ⟨rfl, List.cons_ne_nil _ _, hrest⟩)
  next b _ => exact inv_of_ends (s := s.writeByte b) hreset (ends_endOk _ _ _)
  next hfl => exact absurd hfl hne

/-! ### Deframer registers -/

/-- The buffer is within `RX_BUF_MAX` (R201). -/
def WithinMax (p : Config.Params) (buf : Bytes) : Prop := ∀ m, p.rxBufMax = some m → buf.length ≤ m

/-- In RECV the buffer is a legal prefix: no delimiter for a frame, the sequence not yet seen (R56, R215). -/
def LegalPrefix (rd : Reader) (buf : Bytes) : Prop :=
  match rd with
  | .frame _ => noDelim buf = true
  | .sequence seq => seq ≠ [] ∧ tailMatches buf seq = false

theorem deframerGood_recv {p : Config.Params} {rd : Reader} {d : DeframerRegs} (h : d.phase = .recv) :
    deframerGood p rd d = true ↔ WithinMax p d.buf ∧ LegalPrefix rd d.buf := by
  cases hm : p.rxBufMax <;> cases rd <;> simp [deframerGood, WithinMax, LegalPrefix, h, hm]

theorem deframerGood_of_recv {p : Config.Params} {rd : Reader} {d : DeframerRegs} (h : d.phase = .recv)
    (hd : WithinMax p d.buf ∧ LegalPrefix rd d.buf) :
    deframerGood p rd d = true :=
  (deframerGood_recv h).mpr hd

theorem deframerGood_split {p : Config.Params} {reader : FrameReader} {d : DeframerRegs} (h : d.phase = .split) :
    deframerGood p (.frame reader) d = true ↔ WithinMax p d.buf ∧ frameInBuf d.buf = true := by
  cases hm : p.rxBufMax <;> simp [deframerGood, WithinMax, h, hm]

theorem deframerGood_unstuff {p : Config.Params} {reader : FrameReader} {d : DeframerRegs} (h : d.phase = .unstuff) :
    deframerGood p (.frame reader) d = true ↔ WithinMax p d.buf ∧ frameInBuf d.buf = true ∧ 3 ≤ d.buf.length ∧
      d.buf.head? = some d.cmd ∧ decGood d.region d.decoder = true := by
  cases hm : p.rxBufMax <;> simp [deframerGood, WithinMax, h, hm, and_assoc]

theorem deframerGood_of_unstuff {p : Config.Params} {reader : FrameReader} {d : DeframerRegs} (h : d.phase = .unstuff)
    (hd : WithinMax p d.buf ∧ frameInBuf d.buf = true ∧ 3 ≤ d.buf.length ∧ d.buf.head? = some d.cmd ∧
      decGood d.region d.decoder = true) :
    deframerGood p (.frame reader) d = true :=
  (deframerGood_unstuff h).mpr hd

theorem deframerGood_check {p : Config.Params} {reader : FrameReader} {d : DeframerRegs} (h : d.phase = .check) :
    deframerGood p (.frame reader) d = true ↔ WithinMax p d.buf ∧ frameInBuf d.buf = true ∧
      d.buf.head? = some d.cmd ∧ d.rxDec ≠ [] ∧ crcGood d.rxDec.dropLast d.crc = true := by
  cases hm : p.rxBufMax <;> simp [deframerGood, WithinMax, h, hm, and_assoc]

theorem deframerGood_of_check {p : Config.Params} {reader : FrameReader} {d : DeframerRegs} (h : d.phase = .check)
    (hd : WithinMax p d.buf ∧ frameInBuf d.buf = true ∧ d.buf.head? = some d.cmd ∧ d.rxDec ≠ [] ∧
      crcGood d.rxDec.dropLast d.crc = true) :
    deframerGood p (.frame reader) d = true :=
  (deframerGood_check h).mpr hd

theorem withinMax_append {p : Config.Params} {buf : Bytes} (h : bufFull p buf = false) (b : Byte) :
    WithinMax p (buf ++ [b]) := by
  intro m hm
  have := bufFull_eq_false_iff.mp h m hm
  simpa using this

/-- A byte that does not end the reader keeps the prefix legal. -/
theorem legalPrefix_append {rd : Reader} {buf : Bytes} {b : Byte} (h : LegalPrefix rd buf)
    (he : rd.ends (buf ++ [b]) = false) : LegalPrefix rd (buf ++ [b]) := by
  cases rd with
  | frame reader =>
    have hb : b ≠ 0x00 := fun hb => by simp [(ends_frame_append reader buf b).mpr hb] at he
    have hbuf : noDelim buf = true := h
    simpa [LegalPrefix, hbuf] using hb
  | sequence seq => exact ⟨h.1, he⟩

/-- A byte that ends a frame leaves a frame in the buffer. -/
theorem frameInBuf_append {reader : FrameReader} {buf : Bytes} {b : Byte} (h : LegalPrefix (.frame reader) buf)
    (he : (Reader.frame reader).ends (buf ++ [b]) = true) : frameInBuf (buf ++ [b]) = true := by
  obtain rfl := (ends_frame_append reader buf b).mp he
  have hbuf : noDelim buf = true := h
  simp [frameInBuf, hbuf]

theorem scan_dry_legal {p : Config.Params} {rd : Reader} {rx buf buf' : Bytes} (hmax : WithinMax p buf)
    (hlegal : LegalPrefix rd buf) (h : scan p rd buf rx = .dry buf') : WithinMax p buf' ∧ LegalPrefix rd buf' := by
  induction rx generalizing buf with
  | nil => cases h; exact ⟨hmax, hlegal⟩
  | cons b rx ih =>
    simp only [scan] at h
    rcases receiveByte_cases p rd buf b with ⟨-, hr⟩ | ⟨-, -, hr⟩ | ⟨-, -, -, hr⟩ | ⟨hf, -, he, hr⟩ <;> rw [hr] at h
    · cases h
    · cases h
    · cases h
    · exact ih (withinMax_append hf b) (legalPrefix_append hlegal he) h

theorem withinMax_nil (p : Config.Params) : WithinMax p [] := fun _ _ => Nat.zero_le _

/-- An operation that reads has a sequence to seek, if it seeks one (R215). -/
theorem legalPrefix_nil {p : Config.Params} {rd : Reader} (h : operandRefusal p rd.instr = none) :
    LegalPrefix rd [] := by
  cases rd with
  | frame reader => rfl
  | sequence seq =>
    have hne : seq ≠ [] := by
      rintro rfl
      cases h
    exact ⟨hne, Bool.eq_false_iff.mpr fun ht => hne (List.suffix_nil.mp (tailMatches_iff.mp ht))⟩

section
variable {s : State} {rd : Reader} {reader : FrameReader}

theorem good_deframer (hs : s.inv = true) (ha : s.activity = some (.read rd)) {d : DeframerRegs}
    (hd : deframerGood s.params rd d = true) : Good (.next { s with dfr := d }) :=
  inv_of_unitGood hs ha rfl ⟨rfl, rfl, rfl, rfl⟩ rfl hd

theorem good_ends (hs : s.inv = true) (ha : s.activity = some (.read rd)) {t : State} (h : Ends .deframer s t) :
    Good (.next t) :=
  inv_of_ends ((inv_of_activity ha).mp hs).2.1 h

theorem good_takeReceived (hs : s.inv = true) (ha : s.activity = some (.read rd)) (hphase : s.dfr.phase = .recv)
    (b : Byte) : Good (takeReceived rd b s) := by
  obtain ⟨hmax, hlegal⟩ := (deframerGood_recv hphase).mp ((inv_of_activity ha).mp hs).1
  unfold takeReceived
  rcases receiveByte_cases s.params rd s.dfr.buf b with ⟨-, hr⟩ | ⟨-, -, hr⟩ | ⟨hf, -, he, hr⟩ | ⟨hf, -, he, hr⟩ <;>
    simp only [hr]
  · exact good_ends hs ha (ends_raiseFailure _ s (by decide) _)
  · nofun
  · cases rd with
    | sequence seq => exact good_ends hs ha (ends_endOk _ s _)
    | frame reader =>
      exact good_deframer hs ha
        ((deframerGood_split rfl).mpr ⟨withinMax_append hf b, frameInBuf_append hlegal he⟩)
  · exact good_deframer hs ha
      (deframerGood_of_recv hphase ⟨withinMax_append hf b, legalPrefix_append hlegal he⟩)

theorem good_tickRecv (hs : s.inv = true) (ha : s.activity = some (.read rd)) (hphase : s.dfr.phase = .recv) :
    Good (tickRecv rd s) := by
  unfold tickRecv
  rcases State.readByte_cases s with ⟨b, rest, -, hr⟩ | ⟨-, -, hr⟩ | ⟨-, -, hr⟩ <;> simp only [hr]
  · exact good_takeReceived (s := s.withRx rest) hs ha hphase b
  · exact hs
  · exact good_ends hs ha (ends_raiseFailure _ s (by decide) _)

theorem good_tickSplit (hs : s.inv = true) (ha : s.activity = some (.read (.frame reader)))
    (hphase : s.dfr.phase = .split) : Good (tickSplit reader s) := by
  obtain ⟨hmax, hframe⟩ := (deframerGood_split hphase).mp ((inv_of_activity ha).mp hs).1
  unfold tickSplit
  split
  next hnil => simp [hnil, frameInBuf] at hframe
  next =>
    split
    next => exact good_ends hs ha (ends_raiseFailure _ s (by decide) _)
    next => exact good_ends hs ha (conclude_ends reader _ _ s)
    next command region hne hbody =>
      have hlen : 3 ≤ s.dfr.buf.length := by
        have hl := congrArg List.length hbody
        have hr : region ≠ [] := hne
        have := List.length_pos_iff.mpr hr
        simp only [frameBody, List.length_dropLast, List.length_cons] at hl
        omega
      have hhead : s.dfr.buf.head? = some command := by
        have := congrArg List.head? hbody
        rw [frameBody, List.head?_dropLast, if_pos (by omega)] at this
        simpa using this
      exact good_deframer hs ha (deframerGood_of_unstuff rfl ⟨hmax, hframe, hlen, hhead, decGood_start _⟩)

theorem good_tickCheck (hs : s.inv = true) (ha : s.activity = some (.read (.frame reader)))
    (hphase : s.dfr.phase = .check) (hat : s.dfr.atCrcByte = false) : Good (tickCheck reader s) := by
  obtain ⟨hmax, hframe, hhead, hne, hcrc⟩ := (deframerGood_check hphase).mp ((inv_of_activity ha).mp hs).1
  have hlt : s.dfr.crc.i < s.dfr.rxDec.dropLast.length := by
    rw [DeframerRegs.atCrcByte, hphase, beq_self_eq_true, Bool.true_and] at hat
    exact Nat.not_le.mp (of_decide_eq_false hat)
  unfold tickCheck
  rcases takeByte_cases s.dfr.rxDec.dropLast s.dfr.crc with ⟨h, htake⟩ | ⟨h, -⟩
  · simp only [htake]
    exact good_deframer hs ha (deframerGood_of_check hphase ⟨hmax, hframe, hhead, hne, crcGood_takeByte hcrc h⟩)
  · exact absurd hlt (Nat.not_lt.mpr h)

theorem good_tickUnstuffEnd (hs : s.inv = true) (ha : s.activity = some (.read (.frame reader)))
    (hphase : s.dfr.phase = .unstuff) (hcode : s.dfr.decoder.code = none) : Good (tickUnstuffEnd s) := by
  obtain ⟨hmax, hframe, -, hhead, -⟩ := (deframerGood_unstuff hphase).mp ((inv_of_activity ha).mp hs).1
  unfold tickUnstuffEnd
  simp only [hcode]
  split
  next => exact good_ends hs ha (ends_raiseFailure _ s (by decide) _)
  next hne =>
    exact good_deframer hs ha
      (deframerGood_of_check rfl ⟨hmax, hframe, hhead, by simpa using hne, crcGood_start _⟩)

end

/-! ### Every own step of a running unit is good -/

theorem good_advance_crc {s : State} {payload : Bytes} (hs : s.inv = true) (ha : s.activity = some (.crc payload)) :
    Good (advance s) := by
  obtain ⟨hg, hreset, -⟩ := (inv_of_activity ha).mp hs
  rw [advance_of_crc ha, tickCalcCrc]
  simp only [(crcGood_iff.mp hg).1]
  rcases takeByte_cases payload s.crc with ⟨h, htake⟩ | ⟨-, htake⟩ <;> simp only [htake]
  · exact inv_of_unitGood hs ha rfl ⟨rfl, rfl, rfl, rfl⟩ rfl (crcGood_takeByte hg h)
  · exact inv_of_ends hreset (ends_endOk _ s _)

theorem good_advance_enc {s : State} {input : Bytes} (hs : s.inv = true) (ha : s.activity = some (.enc input)) :
    Good (advance s) := by
  obtain ⟨hg, hreset, -⟩ := (inv_of_activity ha).mp hs
  rw [advance_of_enc ha, tickStuff]
  split
  next hphase => exact absurd hphase (encUnitGood_iff.mp hg).1
  next =>
    split
    next b hb =>
      obtain ⟨h, rfl⟩ := List.getElem?_eq_some_iff.mp hb
      exact inv_of_unitGood hs ha rfl ⟨rfl, rfl, rfl, rfl⟩ rfl (encUnitGood_byte hg h)
    next =>
      obtain ⟨-, hgood, hle, hout⟩ := encUnitGood_iff.mp hg
      exact inv_of_unitGood hs ha rfl ⟨rfl, rfl, rfl, rfl⟩ rfl (encUnitGood_of nofun hgood rfl rfl hle hout)
  next => exact inv_of_ends hreset (ends_endOk _ s _)

/-- A step of a running decoder by the element it takes. -/
theorem good_applyDecStep {s : State} {a : ActiveDecoder} (hs : s.inv = true) (ha : s.activeDecoder = some a)
    {st : DecStep} (hst : st = .bad a.regs.r ∨ ∃ d, st = .go d ∧ decGood a.input d = true) :
    Good (applyDecStep a.home st s) := by
  rcases State.activity_of_activeDecoder ha with ⟨hhome, hact, -⟩ | ⟨hhome, ⟨reader, hact⟩, hphase, hin, hregs⟩ <;>
    rw [hhome] <;> rcases hst with rfl | ⟨d, rfl, hd⟩
  · exact inv_of_ends ((inv_of_activity hact).mp hs).2.1 (ends_raiseFailure .dec s (by decide) _)
  · exact inv_of_unitGood hs hact rfl ⟨rfl, rfl, rfl, rfl⟩ rfl hd
  · exact good_ends hs hact (ends_raiseFailure .deframer s (by decide) _)
  · obtain ⟨hmax, hframe, hlen, hhead, -⟩ := (deframerGood_unstuff hphase).mp ((inv_of_activity hact).mp hs).1
    rw [hin] at hd
    exact good_deframer hs hact (deframerGood_of_unstuff hphase ⟨hmax, hframe, hlen, hhead, hd⟩)

theorem good_advance_dec {s : State} {input : Bytes} (hs : s.inv = true) (ha : s.activity = some (.dec input)) :
    Good (advance s) := by
  obtain ⟨hg, hreset, -⟩ := (inv_of_activity ha).mp hs
  replace hg : decGood input s.dec = true := hg
  have hphase : s.dec.phase = .run := (decGood_iff.mp hg).1
  have hact : s.activeDecoder = some { home := .standalone, input := input, regs := s.dec } := by
    simp [State.activeDecoder, ha, hphase]
  rcases decoder_advance hg hact with ⟨hnone, hcode⟩ | ⟨st, hadv, hst⟩
  · replace hcode : s.dec.code = none := hcode
    have hend : tickUnstuff s = .next (s.endOk .dec (.bytes s.dec.out)) := by simp [tickUnstuff, hphase, hcode]
    rw [advance_of_dec ha hnone, hend]
    exact inv_of_ends hreset (ends_endOk _ s _)
  · rw [hadv]
    exact good_applyDecStep hs hact hst

theorem good_advance_sequence {s : State} {seq : Bytes} (hs : s.inv = true)
    (ha : s.activity = some (.read (.sequence seq))) : Good (advance s) := by
  have hg : deframerGood s.params (.sequence seq) s.dfr = true := ((inv_of_activity ha).mp hs).1
  cases hphase : s.dfr.phase with
  | recv =>
    rw [advance_of_recv ⟨ha, hphase⟩]
    exact good_tickRecv hs ha hphase
  | _ => simp [deframerGood, hphase] at hg

theorem good_advance_frame {s : State} {reader : FrameReader} (hs : s.inv = true)
    (ha : s.activity = some (.read (.frame reader))) : Good (advance s) := by
  have hg : deframerGood s.params (.frame reader) s.dfr = true := ((inv_of_activity ha).mp hs).1
  have ticks (h1 : s.dfr.phase ≠ .unstuff) (h2 : s.dfr.atCrcByte = false) : advance s = tickDeframer (.frame reader) s :=
    advance_of_read ha (State.nextElement_of_read ha h1 h2)
  cases hphase : s.dfr.phase with
  | idle => simp [deframerGood, hphase] at hg
  | recv =>
    rw [advance_of_recv ⟨ha, hphase⟩]
    exact good_tickRecv hs ha hphase
  | split =>
    rw [ticks (by simp [hphase]) (DeframerRegs.atCrcByte_of_ne (by simp [hphase]))]
    simp only [tickDeframer, hphase]
    exact good_tickSplit hs ha hphase
  | unstuff =>
    obtain ⟨-, -, -, -, hdec⟩ := (deframerGood_unstuff hphase).mp hg
    have hact := State.activeDecoder_of_unstuff ha hphase
    rcases decoder_advance hdec hact with ⟨hnone, hcode⟩ | ⟨st, hadv, hst⟩
    · rw [advance_of_read ha hnone]
      simp only [tickDeframer, hphase]
      exact good_tickUnstuffEnd hs ha hphase hcode
    · rw [hadv]
      exact good_applyDecStep hs hact hst
  | check =>
    obtain ⟨-, -, -, hne, -⟩ := (deframerGood_check hphase).mp hg
    cases hat : s.dfr.atCrcByte with
    | false =>
      rw [ticks (by simp [hphase]) hat]
      simp only [tickDeframer, hphase]
      exact good_tickCheck hs ha hphase hat
    | true =>
      rw [advance_of_crcByte ha hphase hat hne]
      exact good_ends hs ha (checkCrcByte_ends reader _ s)

theorem good_advance {s : State} (hs : s.inv = true) : Good (advance s) := by
  cases ha : s.activity with
  | none =>
    rw [advance_of_idle (op_eq_none_of_inv hs ha)]
    exact hs
  | some a =>
    cases a with
    | crc payload => exact good_advance_crc hs ha
    | enc input => exact good_advance_enc hs ha
    | dec input => exact good_advance_dec hs ha
    | send c payload =>
      rw [advance_of_send ha]
      exact good_tickFramer hs ha
    | resync =>
      rw [advance_of_resync ha]
      exact good_tickResync hs ha
    | read rd =>
      cases rd with
      | frame reader => exact good_advance_frame hs ha
      | sequence seq => exact good_advance_sequence hs ha

/-! ### The other inputs -/

theorem good_arrive {s : State} (hs : s.inv = true) (bs : Bytes) : Good (arrive bs s) := by
  induction bs generalizing s with
  | nil => exact hs
  | cons b bs ih =>
    refine good_andThen ?_ fun t ht => ih ht
    rcases arriveByte_cases b s with ⟨-, h⟩ | ⟨-, ⟨rd, hp, h⟩⟩ | ⟨-, -, h⟩ <;> rw [h]
    · exact hs
    · obtain ⟨⟨ha, hphase⟩, -⟩ := State.pendingRead_eq_some_iff.mp hp
      exact good_takeReceived hs ha hphase b
    · exact hs

theorem good_runReader {s : State} {rd : Reader} (hs : s.inv = true) (hidle : s.op = none)
    (ho : operandRefusal s.params rd.instr = none) : Good (runReader rd s) := by
  obtain ⟨hreset, houtcome⟩ := (inv_of_idle hidle).mp hs
  have hrel : AllReset (s.release .deframer) := hreset.release _
  cases hscan : scan s.params rd [] s.rx with
  | complete buf rest =>
    obtain ⟨v, hv, hclose⟩ := concludeBuffer_eq_close rd buf
    rw [runReader_of_complete hscan, hclose]
    exact inv_of_ends (s := s.withRx rest) hrel ⟨v, hv, rfl⟩
  | overflow n rest =>
    rw [runReader_of_overflow hscan]
    exact inv_of_ends (s := s.withRx rest) hrel (ends_raiseFailure _ _ (by decide) _)
  | beyondLenW =>
    rw [runReader_of_beyond hscan]
    nofun
  | dry buf =>
    cases hg : s.rxGone with
    | true =>
      rw [runReader_of_gone hscan hg]
      exact inv_of_ends (s := s.withRx []) hrel (ends_raiseFailure _ _ (by decide) _)
    | false =>
      rw [runReader_of_dry hscan hg]
      have hlegal := scan_dry_legal (withinMax_nil _) (legalPrefix_nil ho) hscan
      have ha := (State.receives_waiting rd buf (s.withRx [])).1
      exact (inv_of_activity ha).mpr ⟨deframerGood_of_recv rfl hlegal, hrel, houtcome⟩

theorem good_exec_op {s : State} {i : Instr} (hs : s.inv = true) (hi : i.isOp = true) : Good (exec i s) := by
  have ended (u : UnitName) (bs : Bytes) {t : State} (hidle : s.op = none) (h : Ends u (s.writeBytes bs) t) :
      Good (.next t) := by
    obtain ⟨hreset, -⟩ := (inv_of_idle hidle).mp hs
    refine inv_of_ends (s := s.writeBytes bs) ?_ h
    rw [State.writeBytes_eq]
    exact AllReset.release u hreset
  cases i with
  | calcCrc payload => exact good_unlessRefused fun hidle _ => ended .crc [] hidle (ends_endOk _ s _)
  | stuff input out => exact good_unlessRefused fun hidle _ => ended .enc [] hidle (ends_endOk _ s _)
  | unstuff input out =>
    refine good_unlessRefused fun hidle _ => ?_
    split
    · exact ended .dec [] hidle (ends_endOk _ s _)
    · exact ended .dec [] hidle (ends_raiseFailure _ s (by decide) _)
  | encodeAndSend c payload => exact good_unlessRefused fun hidle _ => ended .framer _ hidle (ends_endOk _ _ _)
  | sendAck c => exact good_unlessRefused fun hidle _ => ended .framer _ hidle (ends_endOk _ _ _)
  | sendResetSequence => exact good_unlessRefused fun hidle _ => ended .framer _ hidle (ends_endOk _ _ _)
  | receiveAndDecode => exact good_unlessRefused fun hidle ho => good_runReader (rd := .frame .packet) hs hidle ho
  | waitAck e => exact good_unlessRefused fun hidle ho => good_runReader (rd := .frame (.ack e)) hs hidle ho
  | readUntilSequence seq => exact good_unlessRefused fun hidle ho => good_runReader (rd := .sequence seq) hs hidle ho
  | reservedOpsel code => nofun
  | _ => cases hi

/-- The registers at the start of an operation are legal. -/
theorem good_begin {s : State} (hs : s.inv = true) (i : Instr) : Good (begin i s) := by
  refine good_unlessRefused fun hidle ho => ?_
  obtain ⟨hreset, houtcome⟩ := (inv_of_idle hidle).mp hs
  obtain ⟨hcrc, henc, hdec, hfrm, hdfr⟩ := hreset
  have started {a : Activity} (ha : activityOf i = some a) (hact : (s.begun i).activity = some a)
      (hg : unitGood (s.begun i) a = true) (hrel : AllReset ((s.begun i).release a.unit)) : Good (.next (s.begun i)) :=
    (inv_of_activity hact).mpr ⟨hg, hrel, by simpa [outcomeGood] using houtcome⟩
  have reads (rd : Reader) (hrd : i = rd.instr) (ha : activityOf i = some (.read rd))
      (hb : s.begun i = { s with op := some i, dfr := DeframerRegs.start }) : Good (.next (s.begun i)) := by
    refine started ha (by rw [hb]; exact ha) ?_ (by rw [hb]; exact ⟨hcrc, henc, hdec, hfrm, rfl⟩)
    rw [hb]
    exact deframerGood_of_recv rfl ⟨withinMax_nil _, legalPrefix_nil (hrd ▸ ho)⟩
  cases i with
  | calcCrc payload => exact started rfl rfl (crcGood_start payload) ⟨rfl, henc, hdec, hfrm, hdfr⟩
  | stuff input out => exact started rfl rfl (encUnitGood_start _ input) ⟨hcrc, rfl, hdec, hfrm, hdfr⟩
  | unstuff input out => exact started rfl rfl (decGood_start input) ⟨hcrc, henc, rfl, hfrm, hdfr⟩
  | encodeAndSend c payload => exact started rfl rfl (beq_self_eq_true _) ⟨hcrc, henc, hdec, rfl, hdfr⟩
  | sendAck c => exact started rfl rfl (beq_self_eq_true _) ⟨hcrc, henc, hdec, rfl, hdfr⟩
  | sendResetSequence => exact started rfl rfl rfl ⟨hcrc, henc, hdec, rfl, hdfr⟩
  | receiveAndDecode => exact reads (.frame .packet) rfl rfl rfl
  | waitAck e => exact reads (.frame (.ack e)) rfl rfl rfl
  | readUntilSequence seq => exact reads (.sequence seq) rfl rfl rfl
  | _ => cases ho

/-- The activity after a caller's write (R54). -/
theorem State.activity_rewritePayload (k : Nat) (b : Byte) (s : State) :
    (s.rewritePayload k b).activity = s.activity ∨
    ∃ c payload, s.activity = some (.send c payload) ∧
      (s.rewritePayload k b).activity = some (.send c (payload.set k b)) := by
  cases hop : s.op with
  | none => exact .inl (by simp [State.activity, hop])
  | some i =>
    rcases activityOf_rewriteOperand k b i with h | ⟨c, payload, hi, h⟩
    · exact .inl (by simp [State.activity, hop, h])
    · exact .inr ⟨c, payload, by simp [State.activity, hop, hi], by simp [State.activity, hop, h]⟩

theorem inv_rewritePayload {s : State} (hs : s.inv = true) (k : Nat) (b : Byte) :
    (s.rewritePayload k b).inv = true := by
  rcases State.activity_rewritePayload k b s with h | ⟨c, payload, ha, h⟩
  · cases ha : s.activity with
    | none =>
      have hidle := op_eq_none_of_inv hs ha
      exact (inv_of_idle (by simp [hidle])).mpr ((inv_of_idle hidle).mp hs)
    | some a =>
      obtain ⟨hg, hreset, houtcome⟩ := (inv_of_activity ha).mp hs
      refine (inv_of_activity (h.trans ha)).mpr ⟨by cases a <;> exact hg, ?_, houtcome⟩
      cases a <;> exact hreset
  · obtain ⟨hg, hreset, houtcome⟩ := (inv_of_activity ha).mp hs
    exact (inv_of_activity h).mpr ⟨(framerGood_set _ payload s.frm k b).trans hg, hreset, houtcome⟩

theorem inv_blockReset (s : State) : s.blockReset.inv = true :=
  (inv_of_idle rfl).mpr ⟨⟨rfl, rfl, rfl, rfl, rfl⟩, rfl⟩

/-- One step from a state that meets the invariant. -/
theorem good_step {s : State} (hs : s.inv = true) : Good (step s) := by
  unfold step
  split
  next => exact good_advance hs
  next rest _ => exact good_advance (s := { s with inputs := rest }) hs
  next w rest _ =>
    cases w with
    | start opsel o => exact good_exec_op (s := { s with inputs := rest }) hs (decodeStart_isOp opsel o)
    | line pos bytes =>
      cases hd : decode (.line pos bytes) with
      | error why =>
        simp only [runWord, hd]
        nofun
      | ok i =>
        rw [runWord_line hd]
        exact good_arrive (s := { s with inputs := rest }) hs _
  next opsel o rest _ => exact good_begin (s := { s with inputs := rest }) hs _
  next k b rest _ => exact inv_rewritePayload (s := { s with inputs := rest }) hs k b
  next => exact hs
  next => exact inv_blockReset _

/-- Settles O58: the reset state is computed to meet both. -/
theorem resetMeetsInv : Obligations.ResetMeetsInv := by
  unfold Obligations.ResetMeetsInv
  decide

/-- Settles O59: what a step may answer under the invariant is no fault and no element out of its place. -/
theorem noFaultUnderInv : Obligations.NoFaultUnderInv := by
  intro s hs
  have hgood := good_step hs
  refine ⟨fun f hf => ?_, fun hr => ?_⟩
  · rw [hf] at hgood
    exact hgood
  · rw [hr] at hgood
    exact hgood rfl

/-! ### The framer's CRC and its payload -/

theorem payloadSteady_of_send {s : State} {c : Byte} {payload : Bytes} (ha : s.activity = some (.send c payload)) :
    s.payloadSteady = framerSteady payload s.frm := by
  simp [State.payloadSteady, ha]

theorem payloadSteady_of_noSend {s : State} (h : ∀ c payload, s.activity ≠ some (.send c payload)) :
    s.payloadSteady = true := by
  unfold State.payloadSteady
  split
  next c payload ha => exact absurd ha (h c payload)
  all_goals rfl

theorem payloadSteady_of_idle {s : State} (h : s.op = none) : s.payloadSteady = true :=
  payloadSteady_of_noSend fun _ _ => by simp [State.activity, h]

/-- With the framer untouched, a send that goes on or ends stays steady. -/
theorem payloadSteady_of_sameFramer {s t : State} (hs : s.payloadSteady = true) (hf : t.frm = s.frm)
    (ho : GoesOnOrEnds s t) : t.payloadSteady = true := by
  rcases ho.activity with ha | ha
  · cases hact : s.activity with
    | none => exact payloadSteady_of_noSend fun _ _ => by simp [ha, hact]
    | some a =>
      cases a with
      | send c payload =>
        rw [payloadSteady_of_send (ha.trans hact), hf, ← payloadSteady_of_send hact, hs]
      | _ => exact payloadSteady_of_noSend fun _ _ => by simp [ha, hact]
  · exact payloadSteady_of_noSend fun _ _ => by simp [ha]

theorem framerSteady_crc {payload : Bytes} {f : FramerRegs} (h : f.phase = .crc) :
    framerSteady payload f = true ↔ f.crc.acc = calcCrc (payload.take f.crc.i) := by
  simp [framerSteady, h]

theorem framerSteady_of_crc {payload : Bytes} {f : FramerRegs} (h : f.phase = .crc)
    (hacc : f.crc.acc = calcCrc (payload.take f.crc.i)) : framerSteady payload f = true :=
  (framerSteady_crc h).mpr hacc

theorem framerSteady_stuff {payload : Bytes} {f : FramerRegs} (h : f.phase = .stuff) :
    framerSteady payload f = true ↔ f.frmCrc = calcCrc payload := by
  simp [framerSteady, h]

theorem framerSteady_of_stuff {payload : Bytes} {f : FramerRegs} (h : f.phase = .stuff)
    (hcrc : f.frmCrc = calcCrc payload) : framerSteady payload f = true :=
  (framerSteady_stuff h).mpr hcrc

section
variable {s t : State} {c : Byte} {payload : Bytes}

theorem payloadSteady_of_frm (ha : s.activity = some (.send c payload)) (hop : t.op = s.op)
    (hf : framerSteady payload t.frm = true) : t.payloadSteady = true := by
  have hat : t.activity = some (.send c payload) := by rw [← ha, State.activity, hop]; rfl
  rw [payloadSteady_of_send hat, hf]

/-- STUFF leaves `frm_crc` alone. -/
theorem tickStuffPhase_steady (ha : s.activity = some (.send c payload)) (hphase : s.frm.phase = .stuff)
    (hf : framerSteady payload s.frm = true) (h : tickStuffPhase payload s = .next t) : t.payloadSteady = true := by
  have hcrc := (framerSteady_stuff hphase).mp hf
  unfold tickStuffPhase at h
  split at h
  · cases h; exact payloadSteady_of_frm ha rfl (framerSteady_of_stuff hphase hcrc)
  · split at h
    · split at h <;> cases h <;> exact payloadSteady_of_frm ha rfl (framerSteady_of_stuff hphase hcrc)
    · cases h; exact payloadSteady_of_frm ha rfl (framerSteady_of_stuff hphase hcrc)
    · cases h; exact payloadSteady_of_frm ha rfl rfl

/-- The CRC pass takes the payload byte by byte, and its end is the CRC of all of it (R172). -/
theorem tickFramer_steady (ha : s.activity = some (.send c payload)) (hf : framerSteady payload s.frm = true)
    (h : tickFramer c payload s = .next t) : t.payloadSteady = true := by
  unfold tickFramer at h
  split at h
  next => cases h
  next => cases h
  next =>
    split at h <;> cases h
    · exact payloadSteady_of_frm ha rfl rfl
    · exact payloadSteady_of_frm ha rfl (framerSteady_of_crc rfl (by simp [CrcRegs.start, calcCrc]))
  next hphase =>
    have hacc := (framerSteady_crc hphase).mp hf
    rcases takeByte_cases payload s.frm.crc with ⟨hlt, htake⟩ | ⟨hle, htake⟩ <;> simp only [htake] at h <;> cases h
    · exact payloadSteady_of_frm ha rfl (framerSteady_of_crc hphase (by rw [hacc]; exact (calcCrc_take_succ hlt).symm))
    · rw [List.take_of_length_le hle] at hacc
      exact payloadSteady_of_frm ha rfl (framerSteady_of_stuff rfl hacc)
  next hphase => exact tickStuffPhase_steady ha hphase hf h
  next => cases h; exact payloadSteady_of_idle (State.endOk_op _ _ _)

end

theorem advance_steady {s t : State} (hs : s.payloadSteady = true) (h : advance s = .next t) :
    t.payloadSteady = true := by
  by_cases hsend : ∃ c payload, s.activity = some (.send c payload)
  · obtain ⟨c, payload, ha⟩ := hsend
    rw [advance_of_send ha] at h
    exact tickFramer_steady ha ((payloadSteady_of_send ha).symm.trans hs) h
  · refine payloadSteady_of_noSend fun c payload ht => ?_
    rcases (advance_progress h).outcome.activity with ha | ha
    · exact hsend ⟨c, payload, ha.symm.trans ht⟩
    · simp [ha] at ht

theorem State.begun_activity {i : Instr} {a : Activity} (ha : activityOf i = some a) (s : State) :
    (s.begun i).activity = some a := by
  cases a <;> simp [State.begun, State.activity, ha]

/-- At its start a send has no CRC yet. -/
theorem begun_steady {s : State} (i : Instr) (hidle : s.op = none) : (s.begun i).payloadSteady = true := by
  cases ha : activityOf i with
  | none => simpa [State.begun, ha] using payloadSteady_of_idle hidle
  | some a =>
    have hact := State.begun_activity ha s
    cases a with
    | send c payload =>
      rw [payloadSteady_of_send hact, State.begun, ha]
      rfl
    | _ => exact payloadSteady_of_noSend (by simp [hact])

/-- Settles O57: a step from a state that meets the invariant is good, and answers only states that meet it; the framer's
CRC changes in its CRC pass alone, and the payload by the caller alone. -/
theorem stepKeepsInv : Obligations.StepKeepsInv := by
  refine ⟨fun s t hs h => ?_, fun s t hs hnot h => ?_⟩
  · have hgood := good_step hs
    rw [h] at hgood
    exact hgood
  · rcases step_cases h with ⟨-, h⟩ | ⟨input, rest, hin, ⟨-, h⟩ | ⟨opsel, o, -, h⟩ | ⟨pos, bytes, i, -, h⟩ |
      ⟨opsel, o, -, h⟩ | ⟨k, b, rfl, -⟩ | ⟨-, rfl⟩ | ⟨-, rfl⟩⟩
    · exact advance_steady hs h
    · exact advance_steady (s := { s with inputs := rest }) hs h
    · obtain ⟨written, arrived, -, ⟨v, -, rfl⟩ | ⟨-, -, rd, buf, -, rfl⟩⟩ := exec_op_eq_next (decodeStart_isOp opsel o) h
      · exact payloadSteady_of_idle (State.close_op _ _ _)
      · exact payloadSteady_of_noSend fun _ _ => by rw [(State.receives_waiting rd buf _).1]; nofun
    · have hk := arrive_lineKeeps h
      exact payloadSteady_of_sameFramer (s := { s with inputs := rest }) hs hk.frm hk.outcome
    · obtain ⟨hidle, -, rfl⟩ := begin_eq_next h
      exact begun_steady (s := { s with inputs := rest }) _ hidle
    · exact absurd hin (hnot k b rest)
    · exact hs
    · exact payloadSteady_of_idle rfl

end Sys2Proof.Machine
end

section
/-! PROOFS. The step machine from the start of a sending operation to its end (R18, R172, R180, R209): which bytes it writes,
one at a time, and where it may be cut short. -/

namespace Sys2Proof.Machine

/-! ### Steps in a row -/

theorem advanceN_succ {s t : State} (h : advance s = .next t) (k : Nat) : advanceN (k + 1) s = advanceN k t := by
  simp only [advanceN, h]

theorem advanceN_succ_eq_next {s t : State} {k : Nat} :
    advanceN (k + 1) s = .next t ↔ ∃ u, advance s = .next u ∧ advanceN k u = .next t := by
  cases h : advance s <;> simp [advanceN, h]

theorem advanceN_add {k : Nat} {s t : State} (h : advanceN k s = .next t) (m : Nat) :
    advanceN (k + m) s = advanceN m t := by
  induction k generalizing s with
  | zero => cases h; rw [Nat.zero_add]
  | succ k ih =>
    obtain ⟨u, hu, ht⟩ := advanceN_succ_eq_next.mp h
    rw [Nat.succ_add, advanceN_succ hu, ih ht]

/-- The running unit gets from one state to the other by its own steps. -/
def Reaches (s t : State) : Prop := ∃ k, advanceN k s = .next t

theorem Reaches.refl (s : State) : Reaches s s := ⟨0, rfl⟩

theorem Reaches.head {s t u : State} (h : advance s = .next u) (ht : Reaches u t) : Reaches s t := by
  obtain ⟨k, hk⟩ := ht
  exact ⟨k + 1, (advanceN_succ h k).trans hk⟩

theorem Reaches.single {s t : State} (h : advance s = .next t) : Reaches s t := .head h (.refl t)

theorem Reaches.trans {s t u : State} (h : Reaches s t) (ht : Reaches t u) : Reaches s u := by
  obtain ⟨k, hk⟩ := h
  obtain ⟨m, hm⟩ := ht
  exact ⟨k + m, (advanceN_add hk m).trans hm⟩

/-! ### Passes over a byte array, by what is left of it -/

theorem getElem?_of_drop_cons {bs rest : Bytes} {i : Nat} {b : Byte} (h : bs.drop i = b :: rest) : bs[i]? = some b := by
  rw [← List.head?_drop, h]; rfl

theorem getElem?_of_drop_nil {bs : Bytes} {i : Nat} (h : bs.drop i = []) : bs[i]? = none :=
  List.getElem?_eq_none (List.drop_eq_nil_iff.mp h)

theorem drop_succ_of_cons {bs rest : Bytes} {i : Nat} {b : Byte} (h : bs.drop i = b :: rest) :
    bs.drop (i + 1) = rest := by
  rw [← List.tail_drop, h]; rfl

theorem CrcRegs.takeByte_of_cons {payload rest : Bytes} {b : Byte} {r : CrcRegs} (h : payload.drop r.i = b :: rest) :
    r.takeByte payload = some { r with acc := crcByte r.acc b, i := r.i + 1 } := by
  simp [CrcRegs.takeByte, getElem?_of_drop_cons h]

theorem CrcRegs.takeByte_of_nil {payload : Bytes} {r : CrcRegs} (h : payload.drop r.i = []) :
    r.takeByte payload = none := by
  simp [CrcRegs.takeByte, getElem?_of_drop_nil h]

/-! ### What a sender writes -/

/-- From here the running unit writes exactly these bytes, one `write_byte` a step, between steps of its own that touch
the framer's registers alone; with the last byte its operation ends (R173, R174, R213). -/
inductive State.Sends : State → Bytes → Prop
  | quiet {s : State} {f : FramerRegs} {todo : Bytes} (step : advance s = .next { s with frm := f })
      (more : State.Sends { s with frm := f } todo) : State.Sends s todo
  | write {s : State} {f : FramerRegs} {b : Byte} {todo : Bytes}
      (step : advance s = .next { s with frm := f, tx := s.tx ++ [b] })
      (more : State.Sends { s with frm := f, tx := s.tx ++ [b] } todo) : State.Sends s (b :: todo)
  | last {s : State} {b : Byte} (step : advance s = .next ((s.writeByte b).endOk .framer .nothing)) : State.Sends s [b]

theorem State.endOk_framer_eq (bs : Bytes) (s : State) : (s.writeBytes bs).endOk .framer .nothing =
    { s with
      op := none, tx := s.tx ++ bs, frm := FramerRegs.reset
      ok := true, err := .none, diag := .none, result := .nothing } := by
  rw [State.writeBytes_eq]
  rfl

theorem State.Sends.reaches_end {s : State} {todo : Bytes} (h : s.Sends todo) :
    Reaches s ((s.writeBytes todo).endOk .framer .nothing) := by
  induction h with
  | quiet step _ ih => exact .head step (by simpa only [State.endOk_framer_eq] using ih)
  | write step _ ih =>
    refine .head step ?_
    simpa only [State.endOk_framer_eq, List.append_assoc, List.singleton_append] using ih
  | last step => exact .single step

theorem State.Sends.ne_nil {s : State} {todo : Bytes} (h : s.Sends todo) : todo ≠ [] := by
  induction h with
  | quiet _ _ ih => exact ih
  | write => exact List.cons_ne_nil _ _
  | last => exact List.cons_ne_nil _ _

/-- While it runs, what it has written is a proper prefix (R180). -/
theorem State.Sends.written_of_running {s t : State} {todo : Bytes} (h : s.Sends todo) {k : Nat}
    (hk : advanceN k s = .next t) (ht : t.op ≠ none) : ∃ m, m < todo.length ∧ t.tx = s.tx ++ todo.take m := by
  induction h generalizing k with
  | quiet step more ih =>
    cases k with
    | zero => cases hk; exact ⟨0, List.length_pos_iff.mpr more.ne_nil, by simp⟩
    | succ k =>
      rw [advanceN_succ step] at hk
      exact ih hk
  | write step _ ih =>
    cases k with
    | zero => cases hk; exact ⟨0, by simp, by simp⟩
    | succ k =>
      rw [advanceN_succ step] at hk
      obtain ⟨m, hm, htx⟩ := ih hk
      exact ⟨m + 1, by simpa using hm, by simpa using htx⟩
  | @last s b step =>
    cases k with
    | zero => cases hk; exact ⟨0, by simp, by simp⟩
    | succ k =>
      have hover := State.endOk_op .framer .nothing (s.writeByte b)
      rw [advanceN_succ step, advanceN_of_fixed (advance_of_idle hover)] at hk
      cases hk
      exact absurd hover ht

/-- Every proper prefix is what it has written at some step (R180). -/
theorem State.Sends.every_prefix {s : State} {todo : Bytes} (h : s.Sends todo) (hs : s.op ≠ none) {m : Nat}
    (hm : m < todo.length) : ∃ k t, advanceN k s = .next t ∧ t.op ≠ none ∧ t.tx = s.tx ++ todo.take m := by
  induction h generalizing m with
  | quiet step _ ih =>
    obtain ⟨k, t, hk, ht, htx⟩ := ih hs hm
    exact ⟨k + 1, t, (advanceN_succ step k).trans hk, ht, htx⟩
  | write step _ ih =>
    cases m with
    | zero => exact ⟨0, _, rfl, hs, by simp⟩
    | succ m =>
      obtain ⟨k, t, hk, ht, htx⟩ := ih hs (Nat.lt_of_succ_lt_succ hm)
      exact ⟨k + 1, t, (advanceN_succ step k).trans hk, ht, by simpa using htx⟩
  | last step =>
    obtain rfl : m = 0 := Nat.lt_one_iff.mp hm
    exact ⟨0, _, rfl, hs, by simp⟩

/-! ### The framer, from its last phase to its first -/

section
variable {s : State} {c : Byte} {payload : Bytes}

theorem sends_term (ha : s.activity = some (.send c payload)) (hphase : s.frm.phase = .term) :
    s.Sends [Config.delim] :=
  .last (by rw [advance_of_send ha, tickFramer, hphase])

/-- In STUFF a block is flushed before anything else (R172, R173). -/
theorem sends_flush {flush todo : Bytes} (ha : s.activity = some (.send c payload)) (hphase : s.frm.phase = .stuff)
    (hfl : s.frm.flush = flush)
    (h : ∀ u : State, u.activity = some (.send c payload) → u.params = s.params → u.frm = { s.frm with flush := [] } →
      u.Sends todo) : s.Sends (flush ++ todo) := by
  induction flush generalizing s with
  | nil => exact h s ha rfl (by rw [← hfl])
  | cons b rest ih =>
    refine .write (f := { s.frm with flush := rest }) ?_ (ih ha hphase rfl h)
    rw [advance_of_send ha, tickFramer, hphase]
    simp only [tickStuffPhase, hfl]
    rfl

/-- After the final close the block is flushed and the delimiter is left. -/
theorem sends_closed (ha : s.activity = some (.send c payload)) (hphase : s.frm.phase = .stuff)
    (henc : s.frm.enc.phase = .idle) : s.Sends (s.frm.flush ++ [Config.delim]) := by
  refine sends_flush ha hphase rfl fun u hau _ hu => ?_
  refine .quiet (f := { u.frm with phase := .term }) ?_ (sends_term hau rfl)
  rw [advance_of_send hau, tickFramer]
  simp only [hu, hphase, tickStuffPhase, henc]

theorem sends_final (ha : s.activity = some (.send c payload)) (hphase : s.frm.phase = .stuff)
    (henc : s.frm.enc.phase = .final) :
    s.Sends (s.frm.flush ++ (s.frm.enc.close.2 ++ [Config.delim])) := by
  refine sends_flush ha hphase rfl fun u hau _ hu => ?_
  have hclosed := sends_closed (s := { u with frm :=
    { u.frm with flush := s.frm.enc.close.2, enc := { s.frm.enc.close.1 with phase := .idle } } })
    hau (by simp [hu, hphase]) rfl
  refine .quiet ?_ hclosed
  rw [advance_of_send hau, tickFramer]
  simp only [hu, hphase, tickStuffPhase, henc]

/-- The stuffing pass writes what the encoder makes of the rest of the payload and of `frm_crc` (R172). -/
theorem sends_stuff (ha : s.activity = some (.send c payload)) (hphase : s.frm.phase = .stuff)
    (henc : s.frm.enc.phase = .run) {rest : Bytes} (hrest : payload.drop s.frm.i = rest) :
    s.Sends (s.frm.flush ++
      (encodeFrom s.params.capRule s.frm.enc (rest ++ [s.frm.frmCrc]) ++ [Config.delim])) := by
  induction rest generalizing s with
  | nil =>
    refine sends_flush ha hphase rfl fun u hau hp hu => ?_
    have hend := getElem?_of_drop_nil hrest
    have hfinal := sends_final (s := { u with frm := u.frm.encodeCrc u.params.capRule u.frm.frmCrc }) hau
      (by simp [FramerRegs.encodeCrc, FramerRegs.encode, hu, hphase]) rfl
    have hbytes : encodeFrom s.params.capRule s.frm.enc ([] ++ [s.frm.frmCrc]) ++ [Config.delim] =
        (u.frm.encodeCrc u.params.capRule u.frm.frmCrc).flush ++
          ((u.frm.encodeCrc u.params.capRule u.frm.frmCrc).enc.close.2 ++ [Config.delim]) := by
      simp [encodeFrom, FramerRegs.encodeCrc, FramerRegs.encode, hu, hp, EncRegs.close]
    rw [hbytes]
    refine .quiet ?_ hfinal
    rw [advance_of_send hau, tickFramer]
    simp only [hu, hphase, tickStuffPhase, henc, hend]
  | cons b rest ih =>
    refine sends_flush ha hphase rfl fun u hau hp hu => ?_
    have hb := getElem?_of_drop_cons hrest
    have hmore := ih (s := { u with frm := { u.frm.encode u.params.capRule b with i := u.frm.i + 1 } }) hau
      (by simp [FramerRegs.encode, hu, hphase]) (by simp [FramerRegs.encode, hu, EncRegs.byte_phase, henc])
      (by simpa [hu] using drop_succ_of_cons hrest)
    have hbytes : encodeFrom s.params.capRule s.frm.enc (b :: rest ++ [s.frm.frmCrc]) ++ [Config.delim] =
        (u.frm.encode u.params.capRule b).flush ++ (encodeFrom u.params.capRule
          (u.frm.encode u.params.capRule b).enc (rest ++ [u.frm.frmCrc]) ++ [Config.delim]) := by
      simp [encodeFrom, FramerRegs.encode, hu, hp]
    rw [hbytes]
    refine .quiet ?_ hmore
    rw [advance_of_send hau, tickFramer]
    simp only [hu, hphase, tickStuffPhase, henc, hb]

/-- At the end of the CRC pass the stuffing pass starts, with the CRC of the bytes that were read (R172). -/
theorem advance_of_crcRead (ha : s.activity = some (.send c payload)) (hphase : s.frm.phase = .crc)
    (hend : payload.drop s.frm.crc.i = []) :
    advance s = .next { s with frm :=
      { s.frm with
        phase := .stuff, frmCrc := s.frm.crc.acc, i := 0, flush := []
        crc := { s.frm.crc with phase := .idle }, enc := EncRegs.start } } := by
  rw [advance_of_send ha, tickFramer, hphase]
  simp only [CrcRegs.takeByte_of_nil hend]

theorem advance_of_crcByteLeft (ha : s.activity = some (.send c payload)) (hphase : s.frm.phase = .crc)
    {b : Byte} {rest : Bytes} (hrest : payload.drop s.frm.crc.i = b :: rest) :
    advance s = .next { s with frm :=
      { s.frm with crc := { s.frm.crc with acc := crcByte s.frm.crc.acc b, i := s.frm.crc.i + 1 } } } := by
  rw [advance_of_send ha, tickFramer, hphase]
  simp only [CrcRegs.takeByte_of_cons hrest]

/-- The CRC pass writes nothing; after it comes the stuffed region of the payload and the CRC (R172). -/
theorem sends_crc (ha : s.activity = some (.send c payload)) (hphase : s.frm.phase = .crc) {rest : Bytes}
    (hrest : payload.drop s.frm.crc.i = rest) :
    s.Sends (stuffWith s.params.capRule (payload ++ [rest.foldl crcByte s.frm.crc.acc]) ++ [Config.delim]) := by
  induction rest generalizing s with
  | nil =>
    exact .quiet (advance_of_crcRead ha hphase hrest) (sends_stuff (by exact ha) rfl rfl rfl)
  | cons b rest ih =>
    exact .quiet (advance_of_crcByteLeft ha hphase hrest)
      (ih (by exact ha) (by exact hphase) (drop_succ_of_cons hrest))

/-- A send writes its frame (R171, R172). -/
theorem sends_frame (ha : s.activity = some (.send c payload)) (hphase : s.frm.phase = .cmd) :
    s.Sends (frameOf s.params.capRule c payload) := by
  by_cases hp : payload = []
  · subst hp
    refine .write (f := { s.frm with phase := .term }) ?_ (sends_term ha rfl)
    rw [advance_of_send ha, tickFramer, hphase]
    rfl
  · rw [frameOf_payload _ _ hp]
    refine .write (f := { s.frm with phase := .crc, crc := CrcRegs.start }) ?_
      (sends_crc (s := { s with frm := { s.frm with phase := .crc, crc := CrcRegs.start }, tx := s.tx ++ [c] }) ha rfl rfl)
    rw [advance_of_send ha, tickFramer, hphase]
    simp [hp, State.writeByte]

end

/-- `send_reset_sequence` writes what is left of its bytes (R213). -/
theorem sends_resync {s : State} {b : Byte} {rest : Bytes} (ha : s.activity = some .resync)
    (hphase : s.frm.phase = .resync) (hfl : s.frm.flush = b :: rest) : s.Sends (b :: rest) := by
  induction rest generalizing s b with
  | nil => exact .last (by simp only [advance_of_resync ha, tickResync, hphase, hfl])
  | cons x rest ih =>
    refine .write (f := { s.frm with flush := x :: rest }) ?_ (ih ha hphase rfl)
    simp only [advance_of_resync ha, tickResync, hphase, hfl]
    rfl

/-- A sending operation that has started writes its bytes, and nothing else is in their way. -/
theorem begun_sends {i : Instr} {s : State} {bytes : Bytes}
    (h : (∃ c payload, activityOf i = some (.send c payload) ∧ bytes = frameOf s.params.capRule c payload) ∨
      (i = .sendResetSequence ∧ bytes = Config.resetSeq)) : (s.begun i).Sends bytes := by
  rcases h with ⟨c, payload, hi, rfl⟩ | ⟨rfl, rfl⟩
  · have hb : s.begun i = { s with op := some i, frm := FramerRegs.start } := by simp [State.begun, hi]
    rw [hb]
    exact sends_frame (s := { s with op := some i, frm := FramerRegs.start }) hi rfl
  · exact sends_resync rfl rfl rfl

theorem State.begun_op {i : Instr} {a : Activity} (ha : activityOf i = some a) (s : State) :
    (s.begun i).op = some i := by
  cases a <;> simp [State.begun, ha]

/-- The only delimiter of a frame with a command is its last byte (R178). -/
theorem notMem_take_frameOf {c : Byte} (hc : c ≠ 0x00) {rule : Config.CapRule} {payload : Bytes} {m : Nat}
    (hm : m < (frameOf rule c payload).length) : (0x00 : Byte) ∉ (frameOf rule c payload).take m := by
  obtain ⟨body, hbody, hnd⟩ := frameOf_eq_body rule hc payload
  rw [hbody, List.length_append, List.length_singleton] at hm
  rw [hbody, List.take_append_of_le_length (Nat.le_of_lt_succ hm)]
  exact fun h => hnd (List.mem_of_mem_take h)

/-- Settles O25: what a running sender has written is a proper prefix, and each occurs; a frame's proper prefix is without
its last byte, the only `0x00`. -/
theorem interruptedSendLeavesPrefix : Obligations.InterruptedSendLeavesPrefix := by
  intro i bytes s b hs hi hb
  obtain ⟨-, -, rfl⟩ := begin_eq_next hb
  obtain ⟨hact, hsends⟩ : (∃ a, activityOf i = some a) ∧ (s.begun i).Sends bytes := by
    rcases hi with ⟨c, payload, rfl, rfl⟩ | ⟨c, rfl, rfl⟩ | ⟨rfl, rfl⟩
    · exact ⟨⟨_, rfl⟩, begun_sends (.inl ⟨c, payload, rfl, rfl⟩)⟩
    · exact ⟨⟨_, rfl⟩, begun_sends (.inl ⟨c, [], rfl, rfl⟩)⟩
    · exact ⟨⟨_, rfl⟩, begun_sends (.inr ⟨rfl, rfl⟩)⟩
  obtain ⟨a, ha⟩ := hact
  have hrun : (s.begun i).op ≠ none := by simp [State.begun_op ha]
  refine ⟨fun k t hk ht => ?_, fun m hm => ?_⟩
  · obtain ⟨m, hm, htx⟩ := hsends.written_of_running hk ht
    refine ⟨m, hm, by simpa [State.begun_tx] using htx, ?_, rfl, rfl⟩
    rintro ⟨command, hc, hcommand⟩
    rcases hi with ⟨c, payload, rfl, rfl⟩ | ⟨c, rfl, rfl⟩ | ⟨rfl, -⟩
    · obtain rfl : c = command := by simpa using hcommand
      exact notMem_take_frameOf hc hm
    · obtain rfl : c = command := by simpa using hcommand
      exact notMem_take_frameOf (rule := .literal) (payload := []) hc hm
    · simp at hcommand
  · obtain ⟨k, t, hk, ht, htx⟩ := hsends.every_prefix hrun hm
    exact ⟨k, t, hk, ht, by simpa [State.begun_tx] using htx⟩

/-! ### The caller's rewriting of the payload -/

/-- A payload after the caller's writes, index and byte (R54). -/
def rewritten (rewrites : List (Nat × Byte)) (payload : Bytes) : Bytes :=
  rewrites.foldl (fun p w => p.set w.1 w.2) payload

theorem length_rewritten (rewrites : List (Nat × Byte)) (payload : Bytes) :
    (rewritten rewrites payload).length = payload.length := by
  induction rewrites generalizing payload with
  | nil => rfl
  | cons w rewrites ih => exact (ih _).trans List.length_set

/-- Rewriting the payload of a send changes the operands alone (R54). -/
theorem foldl_rewritePayload {c : Byte} {payload : Bytes} (rewrites : List (Nat × Byte)) {s : State}
    (hop : s.op = some (.encodeAndSend c payload)) :
    rewrites.foldl (fun u w => u.rewritePayload w.1 w.2) s =
      { s with op := some (.encodeAndSend c (rewritten rewrites payload)) } := by
  induction rewrites generalizing s payload with
  | nil => simp [← hop, rewritten]
  | cons w rewrites ih =>
    have hw : (s.rewritePayload w.1 w.2).op = some (.encodeAndSend c (payload.set w.1 w.2)) := by
      simp [State.rewritePayload, hop, rewriteOperand]
    rw [List.foldl_cons, ih hw]
    rfl

/-- After as many steps as bytes are left the CRC pass has read them all (R172). -/
theorem advanceN_crcPass {s : State} {c : Byte} {payload rest : Bytes} (ha : s.activity = some (.send c payload))
    (hphase : s.frm.phase = .crc) (hrest : payload.drop s.frm.crc.i = rest) :
    advanceN rest.length s = .next { s with frm :=
      { s.frm with crc :=
        { s.frm.crc with acc := rest.foldl crcByte s.frm.crc.acc, i := s.frm.crc.i + rest.length } } } := by
  induction rest generalizing s with
  | nil => rfl
  | cons b rest ih =>
    have hmore := ih (s := { s with frm :=
      { s.frm with crc := { s.frm.crc with acc := crcByte s.frm.crc.acc b, i := s.frm.crc.i + 1 } } })
      ha hphase (drop_succ_of_cons hrest)
    rw [List.length_cons, advanceN_succ (advance_of_crcByteLeft ha hphase hrest), hmore]
    simp [Nat.add_assoc, Nat.add_comm 1]

/-- The framer when its CRC pass has read the whole payload. -/
def crcRead (c : Byte) (payload : Bytes) (s : State) : State :=
  { s with
    op := some (.encodeAndSend c payload), tx := s.tx ++ [c]
    frm :=
      { FramerRegs.start with
        phase := .crc, crc := { acc := calcCrc payload, i := payload.length, phase := .run } } }

/-- The framer when its stuffing pass is about to read its first byte. -/
def crcHeld (c : Byte) (payload : Bytes) (s : State) : State :=
  { crcRead c payload s with frm :=
    { FramerRegs.start with
      phase := .stuff, frmCrc := calcCrc payload, enc := EncRegs.start
      crc := { acc := calcCrc payload, i := payload.length, phase := .idle } } }

theorem advanceN_to_crcRead {c : Byte} {payload : Bytes} (hp : payload ≠ []) (s : State) :
    advanceN (payload.length + 1) (s.begun (.encodeAndSend c payload)) = .next (crcRead c payload s) := by
  have hfirst : advance (s.begun (.encodeAndSend c payload)) = .next { s with
      op := some (.encodeAndSend c payload), tx := s.tx ++ [c]
      frm := { FramerRegs.start with phase := .crc, crc := CrcRegs.start } } := by
    rw [advance_of_send (c := c) (payload := payload) rfl]
    simp [tickFramer, State.begun, activityOf, FramerRegs.start, hp, State.writeByte]
  rw [advanceN_succ hfirst, advanceN_crcPass (c := c) (payload := payload) (rest := payload) rfl rfl rfl]
  simp [crcRead, CrcRegs.start, calcCrc]

theorem advance_crcRead (c : Byte) (payload : Bytes) (s : State) :
    advance (crcRead c payload s) = .next (crcHeld c payload s) :=
  advance_of_crcRead (c := c) (payload := payload) rfl rfl List.drop_length

/-- A send whose payload the caller has rewritten ends with the bytes it then had left to write. -/
theorem rewritten_reaches_end {c : Byte} {payload todo : Bytes} {rewrites : List (Nat × Byte)} {s between : State}
    (hs : s.op = none) (hop : between.op = some (.encodeAndSend c payload))
    (hbetween : between = { s with op := between.op, tx := s.tx ++ [c], frm := between.frm })
    (h : State.Sends { between with op := some (.encodeAndSend c (rewritten rewrites payload)) } todo) :
    Reaches (rewrites.foldl (fun u w => u.rewritePayload w.1 w.2) between)
      { s with
        tx := s.tx ++ [c] ++ todo, frm := FramerRegs.reset
        ok := true, err := .none, diag := .none, result := .nothing } := by
  have hend := h.reaches_end
  rw [State.endOk_framer_eq, hbetween] at hend
  rw [foldl_rewritePayload rewrites hop, hbetween, hs]
  exact hend

/-- Settles O22: exec writes the frame at once; in the step machine the CRC is that of the payload as the first pass read
it, and what is stuffed is the payload as it stands then. -/
theorem payloadFrame : Obligations.PayloadFrame := by
  refine ⟨fun command payload s hs hp hfit => ?_, fun command payload rewrites k s b hs hp hk hb => ?_⟩
  · rw [exec_encodeAndSend_of_idle hs hfit, State.endOk_framer_writeBytes hs, frameOf_payload _ _ hp]
    simp [stuffedRegion, calcCrc, Config.crcInit]
  · obtain ⟨-, -, rfl⟩ := begin_eq_next hb
    rw [List.append_assoc]
    rcases hk with rfl | rfl
    · have hsend := sends_crc (s := { crcRead command payload s with
        op := some (.encodeAndSend command (rewritten rewrites payload)) }) rfl rfl (rest := [])
        (List.drop_eq_nil_iff.mpr (by simp [crcRead, length_rewritten]))
      obtain ⟨m, hm⟩ := rewritten_reaches_end hs rfl rfl hsend
      exact ⟨_, m, advanceN_to_crcRead hp s, rfl, hm⟩
    · have hsend := sends_stuff (s := { crcHeld command payload s with
        op := some (.encodeAndSend command (rewritten rewrites payload)) }) rfl rfl rfl rfl
      have hheld := (advanceN_add (advanceN_to_crcRead hp s) 1).trans (advanceN_succ (advance_crcRead command payload s) 0)
      obtain ⟨m, hm⟩ := rewritten_reaches_end (between := crcHeld command payload s) hs rfl rfl hsend
      exact ⟨_, m, hheld, rfl, hm⟩

end Sys2Proof.Machine
end

section
/-! PROOFS. The step machine from the start of a codec operation to its end (R18, R117, R132 to R135, R151, R159). -/

namespace Sys2Proof.Machine

/-! ### The CRC unit and the encoder -/

theorem crc_reaches_end {s : State} {payload rest : Bytes} (ha : s.activity = some (.crc payload))
    (hphase : s.crc.phase = .run) (hrest : payload.drop s.crc.i = rest) :
    Reaches s (s.endOk .crc (.byte (rest.foldl crcByte s.crc.acc))) := by
  induction rest generalizing s with
  | nil =>
    refine .single ?_
    rw [advance_of_crc ha, tickCalcCrc, hphase]
    simp only [CrcRegs.takeByte_of_nil hrest]
    rfl
  | cons b rest ih =>
    have step : advance s =
        .next { s with crc := { s.crc with acc := crcByte s.crc.acc b, i := s.crc.i + 1 } } := by
      rw [advance_of_crc ha, tickCalcCrc, hphase]
      simp only [CrcRegs.takeByte_of_cons hrest]
    exact .head step (ih (by exact ha) (by exact hphase) (drop_succ_of_cons hrest))

theorem enc_reaches_end {s : State} {input rest out : Bytes} (ha : s.activity = some (.enc input))
    (hphase : s.enc.phase = .run) (hrest : input.drop s.enc.i = rest)
    (hout : s.enc.out ++ encodeFrom s.params.capRule s.enc rest = out) : Reaches s (s.endOk .enc (.bytes out)) := by
  induction rest generalizing s with
  | nil =>
    have step : advance s = .next { s with enc := { s.enc with phase := .final } } := by
      rw [advance_of_enc ha, tickStuff, hphase]
      simp only [getElem?_of_drop_nil hrest]
    subst hout
    exact .head step (.single (advance_of_enc (by exact ha)))
  | cons b rest ih =>
    have step : advance s = .next { s with enc :=
        { (s.enc.byte s.params.capRule b).1 with
          out := s.enc.out ++ (s.enc.byte s.params.capRule b).2, i := s.enc.i + 1 } } := by
      rw [advance_of_enc ha, tickStuff, hphase]
      simp only [getElem?_of_drop_cons hrest]
    refine .head step (ih (by exact ha) ((EncRegs.byte_phase _ b s.enc).trans hphase) (drop_succ_of_cons hrest) ?_)
    rw [← hout, encodeFrom, ← List.append_assoc]
    exact congrArg _ (encodeFrom_congr _ (by rfl) (by rfl) _)

/-! ### The decoder, in both its homes -/

section
variable {s : State} {a : ActiveDecoder}

theorem State.withDecoder_self (ha : s.activeDecoder = some a) : s.withDecoder a.home a.regs = s := by
  rcases State.activity_of_activeDecoder ha with ⟨hhome, -, -, hregs⟩ | ⟨hhome, -, -, -, hregs⟩ <;>
    rw [hhome, hregs] <;> rfl

theorem State.withDecoder_withDecoder (home : DecHome) (d e : DecRegs) (s : State) :
    (s.withDecoder home d).withDecoder home e = s.withDecoder home e := by
  cases home <;> rfl

theorem State.raiseFailure_withDecoder (home : DecHome) (d : DecRegs) (k : ErrKind) (diag : Diag) (s : State) :
    (s.withDecoder home d).raiseFailure home.unit k diag = s.raiseFailure home.unit k diag := by
  cases home <;> rfl

theorem State.activeDecoder_withDecoder (ha : s.activeDecoder = some a) {d : DecRegs} (hd : d.phase = a.regs.phase) :
    (s.withDecoder a.home d).activeDecoder = some { home := a.home, input := a.input, regs := d } := by
  rcases State.activity_of_activeDecoder ha with
    ⟨hhome, hact, hphase, hregs⟩ | ⟨hhome, ⟨reader, hact⟩, hphase, hin, hregs⟩ <;> rw [hhome]
  · have hact' : ({ s with dec := d } : State).activity = some (.dec a.input) := hact
    rw [hregs, hphase] at hd
    simp [State.activeDecoder, hact', hd]
  · have hact' : ({ s with dfr := { s.dfr with decoder := d } } : State).activity = some (.read (.frame reader)) := hact
    simp only [State.activeDecoder, State.withDecoder_deframer, hact']
    exact (if_pos hphase).trans (by rw [hin]; rfl)

/-- A decoder between blocks that has no block left. -/
theorem State.nextElement_of_end (ha : s.activeDecoder = some a) (hc : a.regs.code = none)
    (hend : a.input[a.regs.r]? = none) : s.nextElement = none := by
  simp [State.nextElement_of_active ha, DecRegs.nextElement, hc, hend]

end

/-- A decoder between blocks whose blocks are all good takes them, up to the end of its input (R151). -/
theorem decoder_reaches_end {s : State} {a : ActiveDecoder} {fuel : Nat} {out : Bytes} (ha : s.activeDecoder = some a)
    (hc : a.regs.code = none) (hfuel : a.input.length ≤ a.regs.r + fuel)
    (h : unstuffFrom a.input fuel a.regs.r a.regs.out = .ok out) :
    ∃ d : DecRegs, d.out = out ∧ d.code = none ∧ d.phase = a.regs.phase ∧ Reaches s (s.withDecoder a.home d) ∧
      (s.withDecoder a.home d).nextElement = none := by
  induction fuel generalizing s a with
  | zero =>
    have hend : a.input[a.regs.r]? = none := List.getElem?_eq_none hfuel
    cases h
    refine ⟨a.regs, rfl, hc, rfl, ?_⟩
    rw [State.withDecoder_self ha]
    exact ⟨.refl s, State.nextElement_of_end ha hc hend⟩
  | succ fuel ih =>
    rw [unstuffFrom] at h
    cases hcode : a.input[a.regs.r]? with
    | none =>
      simp only [hcode] at h
      cases h
      refine ⟨a.regs, rfl, hc, rfl, ?_⟩
      rw [State.withDecoder_self ha]
      exact ⟨.refl s, State.nextElement_of_end ha hc hcode⟩
    | some code =>
      cases hb : badBlock a.input.length a.regs.r code with
      | true => simp [hcode, hb] at h
      | false =>
        have hpos : code.toNat ≠ 0 := fun h0 => (badBlock_eq_false.mp hb).1 (BitVec.eq_of_toNat_eq h0)
        have step := advance_of_block ha hc hcode hb
        simp only [hcode, hb] at h
        obtain ⟨d, hout, hnone, hphase, hreach, hnext⟩ := ih
          (State.activeDecoder_withDecoder ha (d := a.regs.takeBlock a.input code) rfl) rfl
          (by simp only [DecRegs.takeBlock, DecRegs.completeBlock]; omega) h
        rw [State.withDecoder_withDecoder] at hreach hnext
        exact ⟨d, hout, hnone, hphase, .head step hreach, hnext⟩

/-- A decoder between blocks that meets a bad one fails there (R152, R153). -/
theorem decoder_reaches_failure {s : State} {a : ActiveDecoder} {fuel r : Nat} (ha : s.activeDecoder = some a)
    (hc : a.regs.code = none) (h : unstuffFrom a.input fuel a.regs.r a.regs.out = .error r) :
    Reaches s (s.raiseFailure a.home.unit .invalidEncoding (.cursor r)) := by
  induction fuel generalizing s a with
  | zero => cases h
  | succ fuel ih =>
    rw [unstuffFrom] at h
    cases hcode : a.input[a.regs.r]? with
    | none => simp [hcode] at h
    | some code =>
      cases hb : badBlock a.input.length a.regs.r code with
      | true =>
        simp only [hcode, hb] at h
        cases h
        exact .single (advance_of_badBlock ha hc hcode hb)
      | false =>
        simp only [hcode, hb] at h
        have hmore := ih (State.activeDecoder_withDecoder ha (d := a.regs.takeBlock a.input code) rfl) rfl h
        rw [State.raiseFailure_withDecoder] at hmore
        exact .head (advance_of_block ha hc hcode hb) hmore

end Sys2Proof.Machine
end

section
/-! PROOFS. The step machine from the start of a reading operation to its end (R18, R191 to R199, R208, R209, R215), and with
it the agreement of the two views of every operation. -/

namespace Sys2Proof.Machine

/-! ### Ends that do not look at the deframer's registers -/

theorem State.close_withDfr (v : Verdict) (d : DeframerRegs) (s : State) :
    ({ s with dfr := d } : State).close .deframer v = s.close .deframer v := by
  cases v <;> rfl

theorem conclude_withDfr (reader : FrameReader) (command : Byte) (payload : Bytes) (d : DeframerRegs) (s : State) :
    conclude reader command payload { s with dfr := d } = conclude reader command payload s := by
  obtain ⟨v, -, hv⟩ := conclude_eq_close reader command payload
  rw [hv, hv, State.close_withDfr]

theorem concludeBuffer_withDfr (rd : Reader) (buf : Bytes) (d : DeframerRegs) (s : State) :
    concludeBuffer rd buf { s with dfr := d } = concludeBuffer rd buf s := by
  obtain ⟨v, -, hv⟩ := concludeBuffer_eq_close rd buf
  rw [hv, hv, State.close_withDfr]

/-! ### Decoding a frame that has been read -/

/-- The outcome of a frame whose region has been decoded and checked (R197 to R199). -/
def State.judged (reader : FrameReader) (command : Byte) (checked : Except (ErrKind × Diag) Bytes) (s : State) : State :=
  match checked with
  | .error (kind, diag) => s.raiseFailure .deframer kind diag
  | .ok payload => conclude reader command payload s

theorem State.judged_withDfr (reader : FrameReader) (command : Byte) (checked : Except (ErrKind × Diag) Bytes)
    (d : DeframerRegs) (s : State) :
    ({ s with dfr := d } : State).judged reader command checked = s.judged reader command checked := by
  cases checked with
  | error e => rfl
  | ok payload => exact conclude_withDfr reader command payload d s

section
variable {s : State} {reader : FrameReader} {buf region : Bytes} {command : Byte}

theorem concludeBuffer_of_undecodable {r : Nat} (hbody : frameBody buf = command :: region) (hne : region ≠ [])
    (h : unstuff region = .error r) :
    concludeBuffer (.frame reader) buf s = s.raiseFailure .deframer .invalidEncoding (.cursor r) := by
  obtain ⟨b, region, rfl⟩ := List.exists_cons_of_ne_nil hne
  simp [concludeBuffer, deframe, hbody, h]

theorem concludeBuffer_of_decoded {d : Bytes} (hbody : frameBody buf = command :: region) (hne : region ≠ [])
    (h : unstuff region = .ok d) :
    concludeBuffer (.frame reader) buf s = s.judged reader command (checkDecoded d) := by
  obtain ⟨b, region, rfl⟩ := List.exists_cons_of_ne_nil hne
  cases hcheck : checkDecoded d <;> simp [concludeBuffer, deframe, hbody, h, hcheck, State.judged, Except.map]

/-- CHECK compares the CRC of the bytes before the last with the last (R198). -/
theorem check_reaches_end {payload rest : Bytes} {crc : Byte} (ha : s.activity = some (.read (.frame reader)))
    (hphase : s.dfr.phase = .check) (hdec : s.dfr.rxDec = payload ++ [crc]) (hrest : payload.drop s.dfr.crc.i = rest)
    (hacc : rest.foldl crcByte s.dfr.crc.acc = calcCrc payload) :
    Reaches s (s.judged reader s.dfr.cmd (checkDecoded (payload ++ [crc]))) := by
  have hat : s.dfr.atCrcByte = decide (payload.length ≤ s.dfr.crc.i) := by
    simp [DeframerRegs.atCrcByte, hphase, hdec]
  induction rest generalizing s with
  | nil =>
    have hend : s.dfr.atCrcByte = true := hat.trans (decide_eq_true (List.drop_eq_nil_iff.mp hrest))
    have hacc : s.dfr.crc.acc = calcCrc payload := hacc
    refine .single ((advance_of_crcByte ha hphase hend (by simp [hdec])).trans (congrArg _ ?_))
    simp only [checkCrcByte, hdec, List.getLast_append_singleton, List.dropLast_concat, hacc, checkDecoded_append]
    split <;> rfl
  | cons b rest ih =>
    have hmore : s.dfr.atCrcByte = false := hat.trans (decide_eq_false fun h => by
      rw [List.drop_eq_nil_iff.mpr h] at hrest
      cases hrest)
    have step : advance s = .next { s with dfr :=
        { s.dfr with crc := { s.dfr.crc with acc := crcByte s.dfr.crc.acc b, i := s.dfr.crc.i + 1 } } } := by
      rw [advance_of_read ha (State.nextElement_of_read ha (by simp [hphase]) hmore)]
      simp only [tickDeframer, hphase, tickCheck, hdec, List.dropLast_concat, CrcRegs.takeByte_of_cons hrest]
    have hjudged := ih (s := { s with dfr :=
        { s.dfr with crc := { s.dfr.crc with acc := crcByte s.dfr.crc.acc b, i := s.dfr.crc.i + 1 } } })
      ha hphase hdec (drop_succ_of_cons hrest) hacc (by simp [DeframerRegs.atCrcByte, hphase, hdec])
    rw [State.judged_withDfr] at hjudged
    exact .head step hjudged

/-- After UNSTUFF an empty result is an error, another is checked (R197, R198). -/
theorem unstuffed_reaches_end (ha : s.activity = some (.read (.frame reader))) (hphase : s.dfr.phase = .unstuff)
    (hc : s.dfr.decoder.code = none) (hn : s.nextElement = none) :
    Reaches s (s.judged reader s.dfr.cmd (checkDecoded s.dfr.decoder.out)) := by
  have step : advance s = tickUnstuffEnd s := by
    rw [advance_of_read ha hn]
    simp only [tickDeframer, hphase]
  rw [tickUnstuffEnd, hc] at step
  rcases List.eq_nil_or_concat' s.dfr.decoder.out with hout | ⟨payload, crc, hout⟩
  · rw [hout]
    exact .single (step.trans (by rw [hout]; rfl))
  · have hcheck := check_reaches_end (s := { s with dfr :=
        { s.dfr with
          phase := .check, rxDec := s.dfr.decoder.out
          decoder := { s.dfr.decoder with phase := .idle }, crc := CrcRegs.start } }) ha rfl hout rfl rfl
    rw [State.judged_withDfr] at hcheck
    rw [hout]
    exact .head (step.trans (by simp [hout])) hcheck

/-- A frame in the buffer is split, decoded and checked by the unit as `deframe` says (R208, R209). -/
theorem split_reaches_end (ha : s.activity = some (.read (.frame reader))) (hphase : s.dfr.phase = .split)
    (hne : s.dfr.buf ≠ []) : Reaches s (concludeBuffer (.frame reader) s.dfr.buf s) := by
  have step : advance s = tickSplit reader s := by
    rw [advance_of_read ha (State.nextElement_of_read ha (by simp [hphase])
      (DeframerRegs.atCrcByte_of_ne (by simp [hphase])))]
    simp only [tickDeframer, hphase]
  unfold tickSplit at step
  split at step
  next hnil => exact absurd hnil hne
  next =>
    split at step
    next hbody => exact .single (step.trans (by simp [concludeBuffer, deframe, hbody]))
    next command hbody => exact .single (step.trans (by simp [concludeBuffer, deframe, hbody]))
    next command region hregion hbody =>
      have hact : State.activeDecoder { s with dfr :=
          { s.dfr with cmd := command, phase := .unstuff, decoder := DecRegs.start } } =
          some { home := .deframer, input := region, regs := DecRegs.start } := by
        rw [State.activeDecoder_of_unstuff (by exact ha) rfl, DeframerRegs.region, hbody]
        rfl
      cases hu : unstuff region with
      | error r =>
        rw [concludeBuffer_of_undecodable hbody hregion hu]
        exact .head step (decoder_reaches_failure hact rfl hu)
      | ok d =>
        obtain ⟨e, rfl, hc, -, hreach, hn⟩ := decoder_reaches_end hact rfl (Nat.le_add_left _ _) hu
        have hend := unstuffed_reaches_end (by exact ha) rfl hc hn
        rw [concludeBuffer_of_decoded hbody hregion hu]
        rw [State.withDecoder_deframer, State.judged_withDfr, State.judged_withDfr] at hend
        exact .head step (hreach.trans hend)

end

/-! ### Reading what has arrived -/

/-- When the reader has read its end, the rest of the operation is the outcome that the buffer has (R208, R209, R215). -/
theorem received_reaches_end {rd : Reader} {s : State} (hr : s.receives rd) {buf : Bytes} (hne : buf ≠ []) :
    Reaches (s.received rd buf) (concludeBuffer rd buf s) := by
  cases rd with
  | sequence seq => exact .refl _
  | frame reader =>
    have hend := split_reaches_end (reader := reader)
      (s := { s with dfr := { s.dfr with buf := buf, phase := .split } }) hr.1 rfl hne
    rw [concludeBuffer_withDfr] at hend
    exact hend

/-- RECV reads as the scan says (R191, R209). -/
theorem receives_reaches {rd : Reader} {bs : Bytes} {s t : State} (hr : s.receives rd)
    (h : (s.withRx []).afterScan rd (scan s.params rd s.dfr.buf bs) = .next t) : Reaches (s.withRx bs) t := by
  induction bs generalizing s with
  | nil =>
    cases h
    exact .refl _
  | cons b bs ih =>
    have step : advance (s.withRx (b :: bs)) = takeReceived rd b (s.withRx bs) :=
      advance_of_recv (s := s.withRx (b :: bs)) hr
    rw [scan] at h
    rcases receiveByte_cases s.params rd s.dfr.buf b with ⟨-, hb⟩ | ⟨-, -, hb⟩ | ⟨-, -, -, hb⟩ | ⟨-, -, -, hb⟩ <;>
      simp only [hb] at h
    · cases h
      refine .single (step.trans ?_)
      simp only [takeReceived, State.withRx_params, State.withRx_dfr, hb]
      rfl
    · cases h
    · cases h
      refine .single ((step.trans (takeReceived_of_complete (s := s.withRx bs) hb)).trans ?_)
      cases rd <;> rfl
    · have hmore := ih (s := { s with dfr := { s.dfr with buf := s.dfr.buf ++ [b] } }) hr
        ((State.afterScan_withBuf rd _ (s.withRx []) _).trans h)
      refine .head (step.trans ?_) hmore
      simp only [takeReceived, State.withRx_params, State.withRx_dfr, hb]
      rfl

/-- A scan that ended early ends so with more bytes behind; a dry one goes on with them (R53, R191). -/
theorem scan_append (p : Config.Params) (rd : Reader) (buf first second : Bytes) :
    scan p rd buf (first ++ second) =
      match scan p rd buf first with
      | .complete buf' rest => .complete buf' (rest ++ second)
      | .overflow n rest => .overflow n (rest ++ second)
      | .beyondLenW => .beyondLenW
      | .dry buf' => scan p rd buf' second := by
  induction first generalizing buf with
  | nil => rfl
  | cons b first ih =>
    rw [List.cons_append, scan, scan]
    cases receiveByte p rd buf b with
    | more buf' => exact ih buf'
    | _ => rfl

theorem scan_complete_ne_nil {p : Config.Params} {rd : Reader} {buf bs buf' rest : Bytes}
    (h : scan p rd buf bs = .complete buf' rest) : buf' ≠ [] := by
  induction bs generalizing buf with
  | nil => cases h
  | cons b bs ih =>
    rw [scan] at h
    rcases receiveByte_cases p rd buf b with ⟨-, hb⟩ | ⟨-, -, hb⟩ | ⟨-, -, -, hb⟩ | ⟨-, -, -, hb⟩ <;>
      simp only [hb] at h
    · cases h
    · cases h
    · cases h
      exact List.append_ne_nil_of_right_ne_nil _ (List.cons_ne_nil _ _)
    · exact ih h

/-- A waiting operation reads on to the outcome that all the bytes have together, whether they are in the RX stream or
arrive. -/
theorem received_withRx_reaches_end {rd : Reader} {s : State} {p : Config.Params} {buf bs buf' rest : Bytes}
    (hr : s.receives rd) (h : scan p rd buf bs = .complete buf' rest) :
    Reaches ((s.received rd buf').withRx rest) (concludeBuffer rd buf' (s.withRx rest)) := by
  have hend := received_reaches_end (s := s.withRx rest) hr (scan_complete_ne_nil h)
  cases rd <;> exact hend

/-! ### The two views -/

/-- Waiting with an empty buffer is the start of a reading operation. -/
theorem State.begun_reader (rd : Reader) (s : State) : s.begun rd.instr = (s.waiting rd []) := by
  rcases rd with (_ | _) | _ <;> rfl

theorem concludeBuffer_waiting (rd : Reader) (buf buf' : Bytes) (s : State) :
    concludeBuffer rd buf' (s.waiting rd buf) = concludeBuffer rd buf' s := by
  obtain ⟨v, -, hv⟩ := concludeBuffer_eq_close rd buf'
  rw [hv, hv]
  cases v <;> rfl

theorem runReader_reaches {rd : Reader} {s t : State} (h : runReader rd s = .next t) :
    Reaches (s.begun rd.instr) t := by
  have hr := State.receives_waiting rd [] s
  have hbegun : s.begun rd.instr = (s.waiting rd []).withRx s.rx := State.begun_reader rd s
  rw [hbegun]
  have reads {u : State} (hu : ((s.waiting rd []).withRx []).afterScan rd (scan s.params rd [] s.rx) = .next u) :=
    receives_reaches hr hu
  rcases runReader_eq_next h with ⟨buf, rest, hscan, rfl⟩ | ⟨n, rest, hscan, rfl⟩ | ⟨buf, hscan, hg, rfl⟩ |
    ⟨buf, hscan, hg, rfl⟩ <;> rw [hscan] at reads
  · have hend := received_withRx_reaches_end (s := (s.waiting rd []).withRx []) hr hscan
    rw [← concludeBuffer_waiting rd [] buf (s.withRx rest)]
    exact (reads rfl).trans hend
  · exact reads rfl
  · refine (reads rfl).trans (.single ?_)
    exact advance_of_lost (s := (s.withRx []).waiting rd buf) (State.receives_waiting rd buf _) rfl hg
  · exact reads rfl

/-- A sending operation that has started ends as if its bytes had been written at once. -/
theorem begun_reaches_end {i : Instr} {s : State} {bytes : Bytes} {f : FramerRegs} (h : (s.begun i).Sends bytes)
    (hf : s.begun i = { s with op := some i, frm := f }) :
    Reaches (s.begun i) ((s.writeBytes bytes).endOk .framer .nothing) := by
  have hend := h.reaches_end
  rw [State.endOk_framer_eq, hf] at hend
  rw [State.endOk_framer_eq, hf]
  exact hend

/-- Settles O54: the operation starts where its meaning does, and its unit gets to the end that its meaning says. -/
theorem functionAndStepMachineAgree : Obligations.FunctionAndStepMachineAgree := by
  intro i s t hi h
  obtain ⟨hs, ho⟩ := op_eq_none_of_exec hi h
  have hbegin : begin i s = .next (s.begun i) := unlessRefused_of_idle hs ho
  suffices hreach : Reaches (s.begun i) t by
    obtain ⟨k, hk⟩ := hreach
    exact ⟨k, _, hbegin, hk⟩
  have reads {rd : Reader} (hrd : i = rd.instr) : Reaches (s.begun i) t := by
    subst hrd
    exact runReader_reaches ((exec_reader_of_idle hs ho).symm.trans h)
  cases i with
  | calcCrc payload =>
    cases (unlessRefused_eq_next.mp h).2
    exact crc_reaches_end rfl rfl rfl
  | stuff input out =>
    cases (unlessRefused_eq_next.mp h).2
    exact enc_reaches_end rfl rfl rfl rfl
  | unstuff input out =>
    have ht := (unlessRefused_eq_next.mp h).2
    have hact : (s.begun (.unstuff input out)).activeDecoder =
      some { home := .standalone, input := input, regs := DecRegs.start } := rfl
    cases hu : unstuff input with
    | error r =>
      simp only [hu] at ht
      cases ht
      exact decoder_reaches_failure hact rfl hu
    | ok d =>
      simp only [hu] at ht
      cases ht
      obtain ⟨e, rfl, hc, hphase, hreach, hn⟩ := decoder_reaches_end hact rfl (Nat.le_add_left _ _) hu
      refine hreach.trans (.single ((advance_of_dec (input := input) rfl hn).trans ?_))
      replace hphase : e.phase = .run := hphase
      simp only [tickUnstuff, State.withDecoder_standalone, hphase, hc]
      rfl
  | encodeAndSend c payload =>
    cases (unlessRefused_eq_next.mp h).2
    exact begun_reaches_end (begun_sends (.inl ⟨c, payload, rfl, rfl⟩)) rfl
  | sendAck c =>
    cases (unlessRefused_eq_next.mp h).2
    exact begun_reaches_end (begun_sends (.inl ⟨c, [], rfl, rfl⟩)) rfl
  | sendResetSequence =>
    cases (unlessRefused_eq_next.mp h).2
    exact begun_reaches_end (begun_sends (.inr ⟨rfl, rfl⟩)) rfl
  | receiveAndDecode => exact reads (rd := .frame .packet) rfl
  | waitAck e => exact reads (rd := .frame (.ack e)) rfl
  | readUntilSequence seq => exact reads (rd := .sequence seq) rfl
  | reservedOpsel code => cases h
  | _ => cases hi

theorem concludeBuffer_withRx (rd : Reader) (buf rx : Bytes) (s : State) :
    concludeBuffer rd buf (s.withRx rx) = (concludeBuffer rd buf s).withRx rx := by
  obtain ⟨v, -, hv⟩ := concludeBuffer_eq_close rd buf
  rw [hv, hv]
  cases v <;> rfl

theorem concludeBuffer_op (rd : Reader) (buf : Bytes) (s : State) : (concludeBuffer rd buf s).op = none := by
  obtain ⟨v, -, hv⟩ := concludeBuffer_eq_close rd buf
  rw [hv, State.close_op]

theorem concludeBuffer_rxGone (rd : Reader) (buf : Bytes) (s : State) :
    (concludeBuffer rd buf s).rxGone = s.rxGone := by
  obtain ⟨v, -, hv⟩ := concludeBuffer_eq_close rd buf
  rw [hv, State.close_rxGone]

/-- A waiting operation that the rest arrives for gets to where the scan of the rest leads. -/
theorem waiting_in_pieces {rd : Reader} {s v : State} {buf rx second : Bytes} (hg : s.rxGone = false)
    (hscan : scan s.params rd [] rx = scan s.params rd buf second)
    (hv : arrive second ((s.withRx []).waiting rd buf) = .next v) :
    ∃ t, Reaches v t ∧ runReader rd (s.withRx rx) = .next t := by
  have hr := State.receives_waiting rd buf (s.withRx [])
  have takes : arrive second ((s.withRx []).waiting rd buf) =
      ((s.withRx []).waiting rd buf).afterScan rd (scan s.params rd buf second) := arrive_of_pendingRead hr rfl hg second
  rw [takes] at hv
  cases hsecond : scan s.params rd buf second with
  | complete buf' rest =>
    rw [hsecond] at hv hscan
    cases hv
    refine ⟨_, received_withRx_reaches_end hr hsecond, (runReader_of_complete hscan).trans ?_⟩
    exact congrArg _ (concludeBuffer_waiting rd buf buf' (s.withRx rest)).symm
  | overflow n rest =>
    rw [hsecond] at hv hscan
    cases hv
    exact ⟨_, .refl _, runReader_of_overflow hscan⟩
  | beyondLenW =>
    rw [hsecond] at hv
    cases hv
  | dry buf' =>
    rw [hsecond] at hv hscan
    cases hv
    exact ⟨_, .refl _, runReader_of_dry hscan hg⟩

/-- What was there is scanned, and what arrives is scanned from there, as if it had been there. -/
theorem runReader_in_pieces {rd : Reader} {s w v : State} {first second : Bytes} (hg : s.rxGone = false)
    (hw : runReader rd (s.withRx first) = .next w) (hv : arrive second w = .next v) :
    ∃ t, Reaches v t ∧ runReader rd (s.withRx (first ++ second)) = .next t := by
  have hscan := scan_append s.params rd [] first second
  rcases runReader_eq_next hw with ⟨buf, rest, h, rfl⟩ | ⟨n, rest, h, rfl⟩ | ⟨buf, h, hgone, -⟩ | ⟨buf, h, -, rfl⟩
  all_goals
    replace h : scan s.params rd [] first = _ := h
    rw [h] at hscan
  · have hg' := (concludeBuffer_rxGone rd buf ((s.withRx first).withRx rest)).trans hg
    rw [arrive_of_idle second (concludeBuffer_op rd buf _) hg'] at hv
    cases hv
    refine ⟨_, .refl _, (runReader_of_complete hscan).trans ?_⟩
    rw [concludeBuffer_withRx, concludeBuffer_withRx, concludeBuffer_withRx, concludeBuffer_withRx]
    rfl
  · rw [arrive_of_idle second (by simp) (by simpa using hg)] at hv
    cases hv
    exact ⟨_, .refl _, runReader_of_overflow hscan⟩
  · exact absurd (hg.symm.trans hgone) nofun
  · exact waiting_in_pieces hg hscan hv

/-- Settles O36: the operation is a reader, and readers read in pieces. -/
theorem receivingInPieces : Obligations.ReceivingInPieces := by
  intro i first second s w v hi hs hg hw hv
  obtain ⟨rd, rfl⟩ : ∃ rd : Reader, i = rd.instr := by
    rcases hi with rfl | ⟨e, rfl⟩ | ⟨seq, rfl⟩
    · exact ⟨.frame .packet, rfl⟩
    · exact ⟨.frame (.ack e), rfl⟩
    · exact ⟨.sequence seq, rfl⟩
  obtain ⟨hr, hfirst⟩ := unlessRefused_eq_next.mp ((exec_reader_eq rd _).symm.trans hw)
  have ho : operandRefusal s.params rd.instr = none := (startRefusal_eq_none.mp hr).2
  obtain ⟨t, ⟨k, hk⟩, ht⟩ := runReader_in_pieces hg hfirst hv
  exact ⟨k, t, hk, (exec_reader_of_idle (s := s.withRx (first ++ second)) hs ho).trans ht⟩

end Sys2Proof.Machine
end
